-- ==== Sys2Proof/Word.lean ====
section
/-! DEFINITION. The widths of the block (spec/00_scope.md R6, R7): every value is an unsigned bit vector (R9); and the two
threshold pairs (spec/30_encoding.md R84). -/

namespace Sys2Proof

/-- A request word and a RESULT: REQ_WIDTH = RESULT_WIDTH = 32 (R7). -/
abbrev Word := BitVec 32

/-- A threshold, a channel and the ARG field: 16 bits (R6, R85). -/
abbrev Half := BitVec 16

/-- A device register and every byte on the transport: 8 bits (R6). -/
abbrev Byte := BitVec 8

/-- A device register address: REG_ADDR_WIDTH = 4 (R6). -/
abbrev RegAddr := BitVec 4

/-- SEL (R84): which threshold pair SET_THRESH writes. -/
inductive ThreshPair where
  /-- SEL = 0: LSB at 0x02, MSB at 0x03. -/
  | low
  /-- SEL = 1: LSB at 0x04, MSB at 0x05. -/
  | high
deriving DecidableEq, Repr

end Sys2Proof
end

