-- ==== Sys2Proof/Syntax.lean ====
section
/-! DEFINITION. The thirteen operations of spec/opcode_table.json, one constructor a row, with the fields
spec/30_encoding.md R87 says each uses. -/

namespace Sys2Proof

/-- The operations (R81), their fields at the widths of the request word (R80): a field value out of its legal range is
still an operation (R96, R98), which ends with InvalidArgument. -/
inductive Instr where
  /-- READ_REG addr, n -/
  | readReg (addr : RegAddr) (n : BitVec 4)
  /-- WRITE_REG addr, value -/
  | writeReg (addr : RegAddr) (value : Half)
  /-- SET_POWER on -/
  | setPower (on : Half)
  /-- SET_GAIN high -/
  | setGain (high : Half)
  /-- SET_INTEG mode -/
  | setInteg (mode : Half)
  /-- SET_MANUAL enable -/
  | setManual (enable : Half)
  /-- SET_THRESH sel, value -/
  | setThresh (sel : ThreshPair) (value : Half)
  /-- SET_PERSIST cycles -/
  | setPersist (cycles : Half)
  /-- SET_INTMODE mode -/
  | setIntMode (mode : Half)
  /-- CLEAR_INT -/
  | clearInt
  /-- READ_CHIPID -/
  | readChipId
  /-- READ_CHANNELS -/
  | readChannels
  /-- READ_TIMING -/
  | readTiming
deriving DecidableEq, Repr

end Sys2Proof
end

