-- ==== Sys2Proof/Decode.lean ====
section
/-! DEFINITION. The request word: its fields (spec/30_encoding.md R80), the opcode map (section 4), the total decoder
(R98) and the encoder. -/

namespace Sys2Proof

/-- OP, bits 31:28 (R80). -/
def opField (w : Word) : BitVec 4 := w.extractLsb' 28 4
/-- ADDR, bits 27:24 (R80). -/
def addrField (w : Word) : RegAddr := w.extractLsb' 24 4
/-- N, bits 23:20 (R80). -/
def nField (w : Word) : BitVec 4 := w.extractLsb' 20 4
/-- RSV, bits 19:17 (R80). -/
def rsvField (w : Word) : BitVec 3 := w.extractLsb' 17 3
/-- SEL, bit 16 (R80). -/
def selField (w : Word) : BitVec 1 := w.extractLsb' 16 1
/-- ARG, bits 15:0 (R80). -/
def argField (w : Word) : Half := w.extractLsb' 0 16

/-- The rows of the opcode map, by operation (R81). -/
inductive Opcode where
  | readReg | writeReg | setPower | setGain | setInteg | setManual | setThresh | setPersist | setIntMode
  | clearInt | readChipId | readChannels | readTiming
deriving DecidableEq, Repr

/-- The operation an OP value selects; 0x0, 0xE and 0xF are reserved (R81, R95). -/
def opcodeOf (op : BitVec 4) : Option Opcode :=
  match op.toNat with
  | 0x1 => some .readReg
  | 0x2 => some .writeReg
  | 0x3 => some .setPower
  | 0x4 => some .setGain
  | 0x5 => some .setInteg
  | 0x6 => some .setManual
  | 0x7 => some .setThresh
  | 0x8 => some .setPersist
  | 0x9 => some .setIntMode
  | 0xA => some .clearInt
  | 0xB => some .readChipId
  | 0xC => some .readChannels
  | 0xD => some .readTiming
  | _ => none

/-- MATCH of section 4. -/
def matchWord : Opcode → Word
  | .readReg => 0x10000000#32
  | .writeReg => 0x20000000#32
  | .setPower => 0x30000000#32
  | .setGain => 0x40000000#32
  | .setInteg => 0x50000000#32
  | .setManual => 0x60000000#32
  | .setThresh => 0x70000000#32
  | .setPersist => 0x80000000#32
  | .setIntMode => 0x90000000#32
  | .clearInt => 0xA0000000#32
  | .readChipId => 0xB0000000#32
  | .readChannels => 0xC0000000#32
  | .readTiming => 0xD0000000#32

/-- MASK of section 4. -/
def maskWord : Opcode → Word
  | .readReg => 0xF00FFFFF#32
  | .writeReg => 0xF0FF0000#32
  | .setPower => 0xFFFF0000#32
  | .setGain => 0xFFFF0000#32
  | .setInteg => 0xFFFF0000#32
  | .setManual => 0xFFFF0000#32
  | .setThresh => 0xFFFE0000#32
  | .setPersist => 0xFFFF0000#32
  | .setIntMode => 0xFFFF0000#32
  | .clearInt => 0xFFFFFFFF#32
  | .readChipId => 0xFFFFFFFF#32
  | .readChannels => 0xFFFFFFFF#32
  | .readTiming => 0xFFFFFFFF#32

/-- The pair a SEL bit selects (R84). -/
def threshPairOf (sel : BitVec 1) : ThreshPair := if sel = 0#1 then .low else .high

/-- The SEL bit of a pair (R84). -/
def selOf : ThreshPair → BitVec 1
  | .low => 0#1
  | .high => 1#1

/-- The operation with the fields R87 says it uses, read off the word. -/
def withFields (o : Opcode) (w : Word) : Instr :=
  match o with
  | .readReg => .readReg (addrField w) (nField w)
  | .writeReg => .writeReg (addrField w) (argField w)
  | .setPower => .setPower (argField w)
  | .setGain => .setGain (argField w)
  | .setInteg => .setInteg (argField w)
  | .setManual => .setManual (argField w)
  | .setThresh => .setThresh (threshPairOf (selField w)) (argField w)
  | .setPersist => .setPersist (argField w)
  | .setIntMode => .setIntMode (argField w)
  | .clearInt => .clearInt
  | .readChipId => .readChipId
  | .readChannels => .readChannels
  | .readTiming => .readTiming

/-- Why a word is an IllegalRequest (R95). -/
inductive IllegalReason where
  /-- OP is 0x0, 0xE or 0xF. -/
  | reservedOp
  /-- A nonzero RSV, or a nonzero field the operation does not use. -/
  | unusedFieldNonzero
deriving DecidableEq, Repr

/-- The verdict of the decoder on a word (R96): one of the operations, or an IllegalRequest. -/
inductive Decoded where
  | op (i : Instr)
  | illegal (why : IllegalReason)
deriving DecidableEq, Repr

/-- `Decode(w)` (R98): total on every 32-bit word. -/
def decode (w : Word) : Decoded :=
  match opcodeOf (opField w) with
  | none => .illegal .reservedOp
  | some o => if w &&& maskWord o = matchWord o then .op (withFields o w) else .illegal .unusedFieldNonzero

/-- A request word from its six fields, OP in the most significant bits (R80). -/
def requestWord (op : BitVec 4) (addr : RegAddr) (n : BitVec 4) (rsv : BitVec 3) (sel : BitVec 1) (arg : Half) : Word :=
  op ++ addr ++ n ++ rsv ++ sel ++ arg

/-- The request word of an operation: its OP (R81), its used fields, and 0 in every field it does not use (R87). -/
def encode : Instr → Word
  | .readReg addr n => requestWord 0x1#4 addr n 0#3 0#1 0#16
  | .writeReg addr value => requestWord 0x2#4 addr 0#4 0#3 0#1 value
  | .setPower on => requestWord 0x3#4 0#4 0#4 0#3 0#1 on
  | .setGain high => requestWord 0x4#4 0#4 0#4 0#3 0#1 high
  | .setInteg mode => requestWord 0x5#4 0#4 0#4 0#3 0#1 mode
  | .setManual enable => requestWord 0x6#4 0#4 0#4 0#3 0#1 enable
  | .setThresh sel value => requestWord 0x7#4 0#4 0#4 0#3 (selOf sel) value
  | .setPersist cycles => requestWord 0x8#4 0#4 0#4 0#3 0#1 cycles
  | .setIntMode mode => requestWord 0x9#4 0#4 0#4 0#3 0#1 mode
  | .clearInt => requestWord 0xA#4 0#4 0#4 0#3 0#1 0#16
  | .readChipId => requestWord 0xB#4 0#4 0#4 0#3 0#1 0#16
  | .readChannels => requestWord 0xC#4 0#4 0#4 0#3 0#1 0#16
  | .readTiming => requestWord 0xD#4 0#4 0#4 0#3 0#1 0#16

/-- The row of the opcode map an operation belongs to. -/
def opcode : Instr → Opcode
  | .readReg _ _ => .readReg
  | .writeReg _ _ => .writeReg
  | .setPower _ => .setPower
  | .setGain _ => .setGain
  | .setInteg _ => .setInteg
  | .setManual _ => .setManual
  | .setThresh _ _ => .setThresh
  | .setPersist _ => .setPersist
  | .setIntMode _ => .setIntMode
  | .clearInt => .clearInt
  | .readChipId => .readChipId
  | .readChannels => .readChannels
  | .readTiming => .readTiming

/-- A word whose low `nbits` bits are those of `w` and whose other bits are 0. -/
def tableWord (nbits w : Nat) : Word := BitVec.ofNat 32 (w % 2 ^ nbits)

/-- The operation this decoder reads from a word numbered as spec/opcode_table.json numbers it. A request is one 32-bit
word, so its bits are the table's bits (R80, R97). -/
def decodeTableWord (nbits w : Nat) : Option Instr :=
  match decode (tableWord nbits w) with
  | .op i => some i
  | .illegal _ => none

end Sys2Proof
end

