-- ==== Sys2Proof/Machine/Operands.lean ====
section
/-! DEFINITION. Operand forms: the legal ranges of the request fields (spec/30_encoding.md R87), the command bytes
(R88, R89; spec/20_memory.md R63), and how an argument becomes the bits an encoder writes (R91, R92). -/

namespace Sys2Proof.Machine

/-- READ_MAX = 4 (spec/00_scope.md R7). -/
def readMax : Nat := 4

/-- N of READ_REG is legal in 1..READ_MAX (R83). -/
def readCountLegal (n : BitVec 4) : Bool := decide (1 ≤ n.toNat) && decide (n.toNat ≤ readMax)

/-- ARG is at most `k` (R85, R87). -/
def argAtMost (k : Nat) (arg : Half) : Bool := decide (arg.toNat ≤ k)

/-- ARG is a boolean, 0 or 1 (R87; D8). -/
def argIsBool (arg : Half) : Bool := argAtMost 1 arg

/-- COMMAND_PREFIX = 0x80 (R7, R88). -/
def commandPrefix : Byte := 0x80#8

/-- CLEAR_CMD = 0xE0 (R89). -/
def clearCmd : Byte := 0xE0#8

/-- The register-select command byte `cmd(addr) = COMMAND_PREFIX | zext_8(addr)` (R63, R88). -/
def cmd (addr : RegAddr) : Byte := commandPrefix ||| addr.setWidth 8

/-- Whether a command byte is a register-select byte: bit 7 set, bits 6:4 clear (R88). -/
def isRegisterSelect (c : Byte) : Bool := c.extractLsb' 4 4 == 0x8#4

/-- The register a register-select byte names: its bits 3:0 (R88). -/
def selectedRegister (c : Byte) : RegAddr := c.extractLsb' 0 4

/-- The device registers the operations name (spec/10_state.md R30). -/
def controlReg : RegAddr := 0x0#4
/-- TIMING (R30). -/
def timingReg : RegAddr := 0x1#4
/-- INTERRUPT (R30). -/
def interruptReg : RegAddr := 0x6#4
/-- ID (R30). -/
def idReg : RegAddr := 0xA#4
/-- DATA0LOW, the first of the four channel registers (R30). -/
def data0LowReg : RegAddr := 0xC#4

/-- The register of a threshold pair's LSB; its MSB is at the next address (R84, R134). -/
def threshLsbReg : ThreshPair → RegAddr
  | .low => 0x2#4
  | .high => 0x4#4

/-- `v[7:0]` (R92), and the byte WRITE_REG writes (R113). -/
def lsb (v : Half) : Byte := v.extractLsb' 0 8

/-- `v[15:8]` (R92). -/
def msb (v : Half) : Byte := v.extractLsb' 8 8

/-- `zext_8(arg[width-1:0]) << shift`: the new bits of a field encoder (R91). -/
def newBits (width shift : Nat) (arg : Half) : Byte := ((arg.extractLsb' 0 width).setWidth 8) <<< shift

/-- The byte SET_POWER writes: 0x03 for on, 0x00 for off (R91, R130). -/
def powerByte (on : Half) : Byte := if on.extractLsb' 0 1 = 1#1 then 0x03#8 else 0x00#8

end Sys2Proof.Machine
end

