-- ==== Sys2Proof/Machine/Fields.lean ====
section
/-! DEFINITION. Field packing and field decoding: the read-modify-write byte (spec/00_scope.md R12, spec/30_encoding.md
R91), the decoders (R93, spec/42_decoders.md R173) and the layout of RESULT (R94). -/

namespace Sys2Proof.Machine

/-- `(cur & preserve_mask) | new_bits` (R12). -/
def rmwByte (cur preserve new : Byte) : Byte := (cur &&& preserve) ||| new

/-- Preserve mask of SET_GAIN (R91). -/
def gainPreserve : Byte := 0x0B#8
/-- Preserve mask of SET_INTEG (R91). -/
def integPreserve : Byte := 0x18#8
/-- Preserve mask of SET_MANUAL (R91). -/
def manualPreserve : Byte := 0x17#8
/-- Preserve mask of SET_PERSIST (R91). -/
def persistPreserve : Byte := 0x30#8
/-- Preserve mask of SET_INTMODE (R91). -/
def modePreserve : Byte := 0x0F#8

/-- New bits of SET_GAIN: `zext_8(ARG[0]) << 4` (R91). -/
def gainBits (high : Half) : Byte := newBits 1 4 high
/-- New bits of SET_INTEG: `zext_8(ARG[1:0])` (R91). -/
def integBits (mode : Half) : Byte := newBits 2 0 mode
/-- New bits of SET_MANUAL: `zext_8(ARG[0]) << 3` (R91; spec/90_conflicts.md C2). -/
def manualBits (enable : Half) : Byte := newBits 1 3 enable
/-- New bits of SET_PERSIST: `zext_8(ARG[3:0])` (R91). -/
def persistBits (cycles : Half) : Byte := newBits 4 0 cycles
/-- New bits of SET_INTMODE: `zext_8(ARG[1:0]) << 4` (R91). -/
def modeBits (mode : Half) : Byte := newBits 2 4 mode

/-- `chipId(b) = b[7:4]` (R173). -/
def chipId (b : Byte) : BitVec 4 := b.extractLsb' 4 4
/-- `gain(t) = t[4]` (R173). -/
def gain (t : Byte) : BitVec 1 := t.extractLsb' 4 1
/-- `integ(t) = t[1:0]` (R173). -/
def integ (t : Byte) : BitVec 2 := t.extractLsb' 0 2
/-- `manual(t) = t[3]` (R173). -/
def manual (t : Byte) : BitVec 1 := t.extractLsb' 3 1
/-- `persist(i) = i[3:0]` (R173). -/
def persist (i : Byte) : BitVec 4 := i.extractLsb' 0 4
/-- `mode(i) = i[5:4]` (R173). -/
def mode (i : Byte) : BitVec 2 := i.extractLsb' 4 2
/-- `u16le(lo, hi) = {hi, lo}` (R66, R173). -/
def u16le (lo hi : Byte) : Half := hi ++ lo

/-- Byte `i` of the bytes a read answered, in arrival order (spec/20_memory.md R67). A response that a run reaches finds
every byte it asks for; where there is none this is 0, which no run can see (log entry 8). -/
def byteAt (bytes : List Byte) (i : Nat) : Byte := bytes.getD i 0#8

/-- `sum over i < N of zext_32(b[i]) << (8*i)` (R94). -/
def packBytes : List Byte → Word
  | [] => 0#32
  | b :: bs => b.setWidth 32 ||| (packBytes bs <<< 8)

/-- RESULT of READ_REG (R94, R112). -/
def readRegResult (n : BitVec 4) (bytes : List Byte) : Word := packBytes (bytes.take n.toNat)

/-- RESULT of READ_CHIPID: `zext_32(b[0] >> 4)` (R94, R170). -/
def chipIdResult (bytes : List Byte) : Word := (chipId (byteAt bytes 0)).setWidth 32

/-- RESULT of READ_CHANNELS: `{ch1, ch0}` (R94, R171). -/
def channelsResult (bytes : List Byte) : Word :=
  u16le (byteAt bytes 2) (byteAt bytes 3) ++ u16le (byteAt bytes 0) (byteAt bytes 1)

/-- RESULT of READ_TIMING for the TIMING byte `t`: raw byte, GAIN, INTEG, MANUAL (R94, R172). -/
def timingWord (t : Byte) : Word :=
  t.setWidth 32 ||| ((gain t).setWidth 32 <<< 8) ||| ((integ t).setWidth 32 <<< 9) ||| ((manual t).setWidth 32 <<< 11)

/-- RESULT of READ_TIMING (R94, R172). -/
def timingResult (bytes : List Byte) : Word := timingWord (byteAt bytes 0)

end Sys2Proof.Machine
end

