-- ==== Sys2Proof/Machine/Flags.lean ====
section
/-! DEFINITION. The block's only flag state, STATUS (spec/10_state.md R27, R29): the codes of spec/60_exceptions.md R191. -/

namespace Sys2Proof.Machine

/-- The outcomes of an operation, in the spec's names (R191). -/
inductive Code where
  | ok
  | transportError
  | invalidArgument
  | unsupportedMode
  | illegalRequest
deriving DecidableEq, Repr

/-- The number STATUS holds for an outcome (R191). -/
def statusBits : Code → BitVec 3
  | .ok => 0#3
  | .transportError => 1#3
  | .invalidArgument => 2#3
  | .unsupportedMode => 3#3
  | .illegalRequest => 4#3

/-- What SET_INTMODE reports once its write has succeeded: UnsupportedMode for mode 2 (R136, R196). -/
def intModeCode (mode : Half) : Code := if mode = 2#16 then .unsupportedMode else .ok

end Sys2Proof.Machine
end

