-- ==== Sys2Proof/Config.lean ====
section
/-! DEFINITION. The parameters spec/00_scope.md R8 leaves OPEN. They describe the environment, not the block: each is an
opaque constant without a body, so that no proof can rest on a value of it. -/

namespace Sys2Proof

/-- What the transport does about a transaction that is outstanding (spec/20_memory.md R60, R61, R77). -/
inductive Reply where
  /-- No answer in this step: the transaction stays outstanding (spec/70_reset_and_hazards.md R228). -/
  | silent
  /-- The transaction answers `Err`. The draws say what became of the device all the same (R77): `command`, whether it took
  the first byte of the frame; `data`, whether it took the data byte of a two-byte write; `pointer`, where its register
  selection lies once it has taken a one-byte write that names no register. The block sees none of them. -/
  | err (command data : Bool) (pointer : RegAddr)
  /-- The transport completes the transaction. For a read, `bytes` is what it returned, and a count other than the one
  requested is an `Err` (R61); for a write the bytes mean nothing. -/
  | ok (bytes : List Byte)
deriving DecidableEq, Repr, Inhabited

/-- `Transport` (R8): the replies of the oracle beyond those a state lists, under no law (R60, R61). FREE VALUE, indexed by
the counter `State.draws` (log entry 4). -/
opaque Config.transport : Nat → Reply

/-- `DEVICE_RESET` (R8, spec/10_state.md R45): the device's register values at power-up. FREE VALUE (log entry 5). -/
opaque Config.deviceReset : RegAddr → Byte

/-- `DEVICE_READ_SEQUENCE` (R8, spec/20_memory.md R76): the device register that byte `i` of a read started at an address
comes from. No rule of the block reads it. FREE VALUE (log entry 5). -/
opaque Config.deviceReadSequence : RegAddr → Nat → RegAddr

/-- `DEVICE_BUS_ADDRESS` (R8): the 7-bit bus address, held by the transport. No rule of the block reads it.
FREE VALUE (log entry 5). -/
opaque Config.deviceBusAddress : BitVec 7

end Sys2Proof
end

