-- ==== Sys2Proof/Machine/State.lean ====
section
/-! DEFINITION. The state: the block's registers and ports (spec/10_state.md R22, spec/30_encoding.md R80), and the two
other agents of spec/00_scope.md R15 as plain data: the host's coming events, and the transport's coming replies with the
device behind it. INVENTORY.md, '## State', gives the rule and the reset value of every field. -/

namespace Sys2Proof.Machine

/-- A transaction as the block issues it: the frames of spec/30_encoding.md R90. -/
inductive Frame where
  /-- A one-byte write: a register select, or the clear command. -/
  | write1 (command : Byte)
  /-- A two-byte write: command byte, then data byte. -/
  | write2 (command data : Byte)
  /-- A read of `count` bytes. -/
  | read (count : Nat)
deriving DecidableEq, Repr

/-- The answer the block takes from a transaction (spec/20_memory.md R60, R61); a write's `ok` carries no bytes. -/
inductive Answer where
  | ok (bytes : List Byte)
  | err
deriving DecidableEq, Repr

/-- One completed transaction of a trace, with its answer (spec/00_scope.md R14). -/
structure Transaction where
  frame  : Frame
  answer : Answer
deriving DecidableEq, Repr

/-- What the host does at the block's ports (R80, R205, R227; spec/70_reset_and_hazards.md R220). -/
inductive HostEvent where
  /-- Presents a request and keeps presenting it until the block accepts it. -/
  | request (word : Word)
  /-- Presents a request for one step only, and then drops REQ_VALID (R227). -/
  | offer (word : Word)
  /-- Presents nothing for one step of an idle block. -/
  | quiet
  /-- Resets the block. -/
  | reset
deriving DecidableEq, Repr

/-- The machine. The first six fields are the block's registers, and no others exist (R22). -/
structure State where
  /-- REQ (R23). -/
  req      : Word
  /-- BUSY (R24). -/
  busy     : Bool
  /-- SEQ (R25): the completed Ok transactions of the current operation. -/
  seq      : BitVec 2
  /-- MIRROR (R26). Outside an RMW it keeps the last byte loaded (log entry 19, DESIGN CHOICE). -/
  mirror   : Byte
  /-- STATUS (R27). -/
  status   : BitVec 3
  /-- RESULT (R28). -/
  result   : Word
  /-- RSP_VALID (R80): a response was produced in the last step. -/
  rspValid : Bool
  /-- The transaction issued and not yet answered (R70, R221). -/
  inFlight : Option Frame
  /-- The transactions of the current or last operation, in order, each with its answer (R14, R16). -/
  trace    : List Transaction
  /-- The host's coming events, the present one first. -/
  host     : List HostEvent
  /-- The transport's coming replies, the next one first. -/
  replies  : List Reply
  /-- The model's own counter: how many replies have been drawn from `Config.transport`. -/
  draws    : Nat
  /-- The bytes the block's frames have put into the device register space (R62, R77), in canonical form. -/
  device   : List Host.Cell
  /-- The register named by the last register-select byte the device took (R46, R77). -/
  select   : RegAddr
deriving DecidableEq, Repr

/-- Why a step could stop with a fault. No rule of the spec stops the block, so no step raises one. -/
inductive Fault where
  /-- REQ or MIRROR read before the block has written it (spec/93_implementation_defined.md U12: "`fault` if a model ever
  reads them; no rule does"). Raised by no meaning, because none reads one so. Safe. -/
  | unwrittenRegisterRead
deriving DecidableEq, Repr

/-- Why an instruction could have no meaning. -/
inductive Refusal where
  /-- An instruction without a meaning yet: raised only by an arm of `exec` that says so, and none does. Safe. -/
  | notModelled (mnemonic : String)
deriving DecidableEq, Repr

/-- The machine right after reset (spec/10_state.md R44, spec/70_reset_and_hazards.md R220): idle, with BUSY, SEQ, STATUS
and RESULT 0. REQ and MIRROR, which the spec leaves unspecified, are 0 (log entry 1, DESIGN CHOICE, unsafe). No request, no
fixed reply and no device write is there yet (log entries 3 to 6). -/
def State.reset : State where
  req      := 0#32
  busy     := false
  seq      := 0#2
  mirror   := 0#8
  status   := 0#3
  result   := 0#32
  rspValid := false
  inFlight := none
  trace    := []
  host     := []
  replies  := []
  draws    := 0
  device   := []
  select   := 0#4

end Sys2Proof.Machine
end

