-- ==== Sys2Proof/Machine/Ops.lean ====
section
/-! DEFINITION. The named operations over the state: the device register record, the ports, one transaction, the end of an
operation (the response, and the abort that is the block's exception), acceptance, reset, and the frame that runs an
operation's script (spec/40_register_access.md R110). -/

namespace Sys2Proof.Machine

/-! ### The device register space -/

/-- The byte recorded for a device register; none where the block has put nothing there. -/
def Memory.read : List Host.Cell → Nat → Option Byte
  | [], _ => none
  | (b, v) :: m, a => if a = b then some v else Memory.read m a

/-- Records a byte at a device register, keeping the canonical form. -/
def Memory.write : List Host.Cell → Nat → Byte → List Host.Cell
  | [], a, v => [(a, v)]
  | (b, u) :: m, a, v =>
    if a < b then (a, v) :: (b, u) :: m
    else if a = b then (a, v) :: m
    else (b, u) :: Memory.write m a v

/-- Addresses strictly rise along the list, the first above `lo` where one is given. -/
def Memory.risesFrom : Option Nat → List Host.Cell → Bool
  | _, [] => true
  | none, c :: m => Memory.risesFrom (some c.1) m
  | some lo, c :: m => decide (lo < c.1) && Memory.risesFrom (some c.1) m

/-- The canonical form: addresses strictly rising, and all of the 16 locations of R62. An unlisted location reads as
nothing, so no listed byte can equal what an unlisted one reads as. -/
def Memory.wf (m : List Host.Cell) : Bool := Memory.risesFrom none m && m.all fun c => decide (c.1 < 16)

/-- What the record says a device register holds: the byte the block put there, or else DEVICE_RESET (R45). A claim about
the real device; no operation of the block reads it (R46). -/
def deviceByte (s : State) (a : RegAddr) : Byte := (Memory.read s.device a.toNat).getD (Config.deviceReset a)

/-! ### Ports -/

/-- REQ_READY = NOT BUSY (spec/30_encoding.md R80). -/
def reqReady (s : State) : Bool := !s.busy

/-- REQ_VALID and REQ_WORD (R80): the request the host presents, if any. -/
def presented (s : State) : Option Word :=
  match s.host with
  | .request w :: _ => some w
  | .offer w :: _ => some w
  | _ => none

/-- REQ_VALID (R80). -/
def reqValid (s : State) : Bool := (presented s).isSome

/-- RSP_STATUS is STATUS at a response (spec/60_exceptions.md R195); that it is STATUS in a step without one too is the
model's choice (log entry 20, DESIGN CHOICE). -/
def rspStatus (s : State) : BitVec 3 := s.status

/-- RSP_RESULT is RESULT at a response (R195); that it is RESULT in a step without one too is the model's choice (log
entry 20, DESIGN CHOICE). -/
def rspResult (s : State) : Word := s.result

/-- The transport's next reply: the first one listed, and beyond the list a free value (R8, log entry 4). -/
def nextReply (s : State) : Reply :=
  match s.replies with
  | r :: _ => r
  | [] => Config.transport s.draws

/-- The state once that reply has been given. -/
def takeReply (s : State) : State :=
  match s.replies with
  | _ :: rs => { s with replies := rs }
  | [] => { s with draws := s.draws + 1 }

/-! ### One transaction -/

/-- The answer the block takes from a reply to a frame; none while the transport is silent (spec/20_memory.md R60, R61:
a read that returns a count other than the one asked for is `Err`). -/
def judge : Frame → Reply → Option Answer
  | _, .silent => none
  | _, .err _ _ _ => some .err
  | .write1 _, .ok _ => some (.ok [])
  | .write2 _ _, .ok _ => some (.ok [])
  | .read n, .ok bytes => if bytes.length = n then some (.ok bytes) else some .err

/-- Whether the device took the frame's command byte: always on success, a draw on failure (R77). -/
def tookCommand : Reply → Bool
  | .silent => false
  | .err command _ _ => command
  | .ok _ => true

/-- Whether the device took the frame's data byte: always on success, a draw on failure (R77). -/
def tookData : Reply → Bool
  | .silent => false
  | .err _ data _ => data
  | .ok _ => true

/-- The register selection after a one-byte write. A register-select byte selects its register where the device took it
(R46). After a clear command that failed the selection is unknown (R77): a draw over every register, the old one among
them; after one that succeeded it is the old one (log entry 6). -/
def selectionAfter (c : Byte) (r : Reply) (old : RegAddr) : RegAddr :=
  if isRegisterSelect c then (if tookCommand r then selectedRegister c else old)
  else
    match r with
    | .silent => old
    | .err command _ pointer => if command then pointer else old
    | .ok _ => old

/-- What a frame leaves at the device (R77, spec/60_exceptions.md R198): the selection if its register-select byte was
taken, the register if its data byte was taken. A read leaves nothing that the spec states (R75, R112), nor does the clear
command (spec/41_field_encoders.md R137; U14; log entries 5 and 6). A write of CONTROL that powers the device off changes
no other register of the record: which ones survive is open (R207), and this the model's choice (log entry 21, DESIGN
CHOICE). Whether the device accepts a write at every address and in every bit is open too (R43, N7): that one answered Ok
is stored as sent, ID, DATA* and the unnamed registers included, is the model's choice (log entry 22, DESIGN CHOICE). -/
def deviceTakes (f : Frame) (r : Reply) (s : State) : State :=
  match f with
  | .write1 c => { s with select := selectionAfter c r s.select }
  | .write2 c v =>
    { s with
      select := if tookCommand r then selectedRegister c else s.select
      device := if tookData r then Memory.write s.device (selectedRegister c).toNat v else s.device }
  | .read _ => s

/-- A transaction of a script, and whether its read loads MIRROR (R111). -/
structure Action where
  frame       : Frame
  loadsMirror : Bool
deriving DecidableEq, Repr

/-- A transaction that leaves MIRROR alone (spec/10_state.md R26). -/
def plain (f : Frame) : Action := { frame := f, loadsMirror := false }

/-- MIRROR after an Ok transaction. Only the read of an RMW loads it (R26); that it keeps its last byte until the next such
read or a reset, where the spec leaves its value unspecified, is the model's choice (log entry 19, DESIGN CHOICE). -/
def mirrorAfter (a : Action) (bytes : List Byte) (old : Byte) : Byte :=
  if a.loadsMirror then byteAt bytes 0 else old

/-- One transaction step (R70, R80, R231): the frame is issued, or is still outstanding, and the transport gives its next
reply. Silence leaves it outstanding (spec/70_reset_and_hazards.md R228). An answer ends it and joins the trace; Ok adds 1 to
SEQ (spec/10_state.md R21, R25). -/
def transact (a : Action) (s : State) : State :=
  match judge a.frame (nextReply s) with
  | none => { takeReply s with inFlight := some a.frame, rspValid := false }
  | some .err =>
    deviceTakes a.frame (nextReply s)
      { takeReply s with inFlight := none, rspValid := false, trace := s.trace ++ [⟨a.frame, .err⟩] }
  | some (.ok bytes) =>
    deviceTakes a.frame (nextReply s)
      { takeReply s with
        inFlight := none
        rspValid := false
        trace    := s.trace ++ [⟨a.frame, .ok bytes⟩]
        seq      := s.seq + 1#2
        mirror   := mirrorAfter a bytes s.mirror }

/-- The last transaction of the operation answered Err (R192). -/
def failed (s : State) : Bool :=
  match s.trace.getLast? with
  | some ⟨_, .err⟩ => true
  | _ => false

/-- The bytes of the operation's last read, in arrival order (R64, R67). -/
def answerBytes (s : State) : List Byte :=
  match s.trace.getLast? with
  | some ⟨.read _, .ok bytes⟩ => bytes
  | _ => []

/-! ### The end of an operation -/

/-- `Respond(s, r)` (R110, R195): STATUS, RESULT and BUSY written, the response produced; the transport port is idle.
MIRROR, whose value the spec leaves unspecified from here on (R26), keeps its byte (log entry 19, DESIGN CHOICE). -/
def respond (code : Code) (r : Word) (s : State) : State :=
  { s with status := statusBits code, result := r, busy := false, rspValid := true, inFlight := none }

/-- The counterpart of taking an exception (spec/60_exceptions.md R190, R193, R194, R199): the operation ends with its
code and RESULT 0, and nothing is saved. -/
def abort (code : Code) (s : State) : State := respond code 0#32 s

/-! ### Host events -/

/-- Acceptance (R80), which is also the counterpart of the return from an exception (R200): REQ latched, BUSY 1, SEQ 0, and
a new trace. -/
def accept (w : Word) (s : State) : State :=
  { s with req := w, busy := true, seq := 0#2, trace := [], inFlight := none, rspValid := false }

/-- An idle block's step (R80, R205, R227): it accepts the request presented, if there is one. -/
def idleStep (s : State) : State :=
  match s.host with
  | .request w :: rest => accept w { s with host := rest }
  | .offer w :: rest => accept w { s with host := rest }
  | .quiet :: rest => { s with host := rest, rspValid := false }
  | .reset :: _ => { s with rspValid := false }
  | [] => { s with rspValid := false }

/-- What the host does during a busy block's step (R227): a request stays presented, and an offer is dropped, which issues
nothing. -/
def hostWaits (s : State) : State :=
  match s.host with
  | .offer _ :: rest => { s with host := rest }
  | _ => s

/-- A transaction in flight at a reset has an unknown outcome at the device (R221, R77): the next reply draws it. -/
def abandonInFlight (s : State) : State :=
  match s.inFlight with
  | some f => deviceTakes f (nextReply s) (takeReply s)
  | none => s

/-- Reset of the block (R220, R221): the registers take their reset values, the operation is abandoned without a response
and without a further transaction, and the device stays as the completed transactions left it. -/
def blockReset (s : State) : State :=
  { abandonInFlight s with
    req      := State.reset.req
    busy     := State.reset.busy
    seq      := State.reset.seq
    mirror   := State.reset.mirror
    status   := State.reset.status
    result   := State.reset.result
    rspValid := false
    inFlight := none
    trace    := [] }

/-! ### Scripts -/

/-- `MemRead(addr, n)` (R64): the register-select write, then the read. -/
def memRead (addr : RegAddr) (n : Nat) : List Action := [plain (.write1 (cmd addr)), plain (.read n)]

/-- `MemWrite(addr, 1, v)` (R65). -/
def memWrite (addr : RegAddr) (v : Byte) : List Action := [plain (.write2 (cmd addr) v)]

/-- `RMW(addr, pm, new_bits)` (R111): its read loads MIRROR, and its write-back is computed from MIRROR. -/
def rmw (addr : RegAddr) (preserve new : Byte) (s : State) : List Action :=
  [plain (.write1 (cmd addr)), { frame := .read 1, loadsMirror := true },
    plain (.write2 (cmd addr) (rmwByte s.mirror preserve new))]

/-- One step of an accepted operation in the frame of R110, in the priority of R197: InvalidArgument before any
transaction; TransportError once a transaction has failed; else the transaction SEQ selects (R21); else the response. -/
def operate (legal : Bool) (script : List Action) (code : Code) (r : Word) (s : State) :
    Host.Outcome State Fault Refusal :=
  if legal = false then .next (abort .invalidArgument s)
  else if failed s = true then .next (abort .transportError s)
  else match script[s.seq.toNat]? with
    | some a => .next (transact a s)
    | none => .next (respond code r s)

end Sys2Proof.Machine
end

