-- ==== Sys2Proof/Machine/FieldDecoders.lean ====
section
/-! DEFINITION. The field-decoder operations (spec/42_decoders.md R170 to R172). -/

namespace Sys2Proof.Machine

/-- READ_CHIPID (R170): the upper nibble of ID. -/
def execReadChipId (s : State) : Host.Outcome State Fault Refusal :=
  operate true (memRead idReg 1) .ok (chipIdResult (answerBytes s)) s

/-- READ_CHANNELS (R171): four bytes from DATA0LOW, as two little-endian channels. -/
def execReadChannels (s : State) : Host.Outcome State Fault Refusal :=
  operate true (memRead data0LowReg 4) .ok (channelsResult (answerBytes s)) s

/-- READ_TIMING (R172): the TIMING byte and its decoded fields. -/
def execReadTiming (s : State) : Host.Outcome State Fault Refusal :=
  operate true (memRead timingReg 1) .ok (timingResult (answerBytes s)) s

end Sys2Proof.Machine
end

