-- ==== Sys2Proof/Machine/FieldEncoders.lean ====
section
/-! DEFINITION. The field-encoder operations (spec/41_field_encoders.md R130 to R137). -/

namespace Sys2Proof.Machine

/-- SET_POWER (R130): a blind write of CONTROL. -/
def execSetPower (on : Half) (s : State) : Host.Outcome State Fault Refusal :=
  operate (argIsBool on) (memWrite controlReg (powerByte on)) .ok 0#32 s

/-- SET_GAIN (R131): replaces TIMING bit 4. -/
def execSetGain (high : Half) (s : State) : Host.Outcome State Fault Refusal :=
  operate (argIsBool high) (rmw timingReg gainPreserve (gainBits high) s) .ok 0#32 s

/-- SET_INTEG (R132): replaces TIMING bits 1:0. -/
def execSetInteg (mode : Half) (s : State) : Host.Outcome State Fault Refusal :=
  operate (argAtMost 3 mode) (rmw timingReg integPreserve (integBits mode) s) .ok 0#32 s

/-- SET_MANUAL (R133): replaces TIMING bit 3; the documented intent (spec/90_conflicts.md C2). -/
def execSetManual (enable : Half) (s : State) : Host.Outcome State Fault Refusal :=
  operate (argIsBool enable) (rmw timingReg manualPreserve (manualBits enable) s) .ok 0#32 s

/-- SET_THRESH (R134): the LSB first, then the MSB; every value is legal. -/
def execSetThresh (sel : ThreshPair) (value : Half) (s : State) : Host.Outcome State Fault Refusal :=
  operate true (memWrite (threshLsbReg sel) (lsb value) ++ memWrite (threshLsbReg sel + 1#4) (msb value)) .ok 0#32 s

/-- SET_PERSIST (R135): replaces INTERRUPT bits 3:0. -/
def execSetPersist (cycles : Half) (s : State) : Host.Outcome State Fault Refusal :=
  operate (argAtMost 15 cycles) (rmw interruptReg persistPreserve (persistBits cycles) s) .ok 0#32 s

/-- SET_INTMODE (R136): replaces INTERRUPT bits 5:4; mode 2 is written and then reported as UnsupportedMode (R196). -/
def execSetIntMode (mode : Half) (s : State) : Host.Outcome State Fault Refusal :=
  operate (argAtMost 3 mode) (rmw interruptReg modePreserve (modeBits mode) s) (intModeCode mode) 0#32 s

/-- CLEAR_INT (R137): the one byte CLEAR_CMD. -/
def execClearInt (s : State) : Host.Outcome State Fault Refusal :=
  operate true [plain (.write1 clearCmd)] .ok 0#32 s

end Sys2Proof.Machine
end

