-- ==== Sys2Proof/Machine/RegisterAccess.lean ====
section
/-! DEFINITION. The raw register operations (spec/40_register_access.md R112, R113). -/

namespace Sys2Proof.Machine

/-- READ_REG (R112): select `addr`, read `n` bytes, return them packed little-endian. -/
def execReadReg (addr : RegAddr) (n : BitVec 4) (s : State) : Host.Outcome State Fault Refusal :=
  operate (readCountLegal n) (memRead addr n.toNat) .ok (readRegResult n (answerBytes s)) s

/-- WRITE_REG (R113): a raw write of ARG[7:0], with no field rule (D36). -/
def execWriteReg (addr : RegAddr) (value : Half) (s : State) : Host.Outcome State Fault Refusal :=
  operate (argAtMost 0xFF value) (memWrite addr (lsb value)) .ok 0#32 s

end Sys2Proof.Machine
end

