-- ==== Sys2Proof/Machine/Dispatch.lean ====
section
/-! DEFINITION. exec: one arm per operation (spec/30_encoding.md R81), each one direct call of its meaning: the next step
of an operation that has been accepted. -/

namespace Sys2Proof.Machine

def exec (i : Instr) (s : State) : Host.Outcome State Fault Refusal :=
  match i with
  | .readReg addr n => Sys2Proof.Machine.execReadReg addr n s
  | .writeReg addr value => Sys2Proof.Machine.execWriteReg addr value s
  | .setPower on => Sys2Proof.Machine.execSetPower on s
  | .setGain high => Sys2Proof.Machine.execSetGain high s
  | .setInteg mode => Sys2Proof.Machine.execSetInteg mode s
  | .setManual enable => Sys2Proof.Machine.execSetManual enable s
  | .setThresh sel value => Sys2Proof.Machine.execSetThresh sel value s
  | .setPersist cycles => Sys2Proof.Machine.execSetPersist cycles s
  | .setIntMode mode => Sys2Proof.Machine.execSetIntMode mode s
  | .clearInt => Sys2Proof.Machine.execClearInt s
  | .readChipId => Sys2Proof.Machine.execReadChipId s
  | .readChannels => Sys2Proof.Machine.execReadChannels s
  | .readTiming => Sys2Proof.Machine.execReadTiming s

end Sys2Proof.Machine
end

