-- ==== Sys2Proof/Machine/Busy.lean ====
section
/-! DEFINITION. The step of a busy block: REQ decoded, and its operation's next step. -/

namespace Sys2Proof.Machine

/-- A busy block's step (spec/40_register_access.md R110): the operation REQ holds takes its next step, and a word that
spells no operation ends with IllegalRequest (spec/60_exceptions.md R194). -/
def busyStep (s : State) : Host.Outcome State Fault Refusal :=
  match decode s.req with
  | .op i => exec i s
  | .illegal _ => .next (abort .illegalRequest s)

end Sys2Proof.Machine
end

