-- ==== Sys2Proof/Machine/Step.lean ====
section
/-! DEFINITION. One step of the machine (spec/30_encoding.md R80, spec/70_reset_and_hazards.md R231): a reset, an
acceptance, a transaction, a response, or a step in which an idle block waits for the host. -/

namespace Sys2Proof.Machine

/-- The host's reset comes first (R220, R221); else a busy block works while the host waits (R227), and an idle one looks
at its request port (R80). -/
def step (s : State) : Host.Outcome State Fault Refusal :=
  match s.host with
  | .reset :: rest => .next (blockReset { s with host := rest })
  | _ => if s.busy = true then busyStep (hostWaits s) else .next (idleStep s)

/-- `s` right after the acceptance of the request word `w` (R80), with no reset due before its operation's first step: the
very next step runs that operation. It stands for the host's issuing the request (log entry 3). -/
def State.withFetchWord (s : State) (nbits w : Nat) : State :=
  accept (tableWord nbits w) { s with host := s.host.dropWhile (· == HostEvent.reset) }

end Sys2Proof.Machine
end

