-- ==== Sys2Proof/Machine/Assembler.lean ====
section
/-! DEFINITION. The assembler of spec/30_encoding.md R99 and the pseudo-instructions of R100. It stands outside the block: it
makes the request words a host presents. A line is a list of characters. -/

namespace Sys2Proof.Machine

/-- The pseudo-instructions (R100). -/
inductive Pseudo where
  | powerOn
  | powerOff
  | gainHigh
  | gainLow
  | setThreshLow (value : Half)
  | setThreshHigh (value : Half)
deriving DecidableEq, Repr

/-- The expansion of a pseudo-instruction (R100). -/
def expand : Pseudo → Instr
  | .powerOn => .setPower 1#16
  | .powerOff => .setPower 0#16
  | .gainHigh => .setGain 1#16
  | .gainLow => .setGain 0#16
  | .setThreshLow value => .setThresh .low value
  | .setThreshHigh value => .setThresh .high value

/-- An operand: a number, or the pair that LOW or HIGH names (R99). -/
inductive AsmOperand where
  | num (k : Nat)
  | pair (p : ThreshPair)
deriving DecidableEq, Repr

/-- What a line assembles to. -/
inductive Assembled where
  /-- Nothing but blanks and a comment. -/
  | blank
  /-- A request word. -/
  | word (w : Word)
  /-- Not a line of R99, or a value that does not fit its field. -/
  | refused
deriving DecidableEq, Repr

/-- A number in a field of `n` bits; refused where it does not fit (R99). -/
def fits (n k : Nat) : Option (BitVec n) := if k < 2 ^ n then some (BitVec.ofNat n k) else none

/-- The operation of a mnemonic and its operands (R99). A value that fits its field is assembled, legal or not. -/
def assembleOp (o : Opcode) (args : List AsmOperand) : Option Instr :=
  match o, args with
  | .readReg, [.num a, .num n] => (fits 4 a).bind fun addr => (fits 4 n).map fun n => .readReg addr n
  | .writeReg, [.num a, .num v] => (fits 4 a).bind fun addr => (fits 16 v).map fun v => .writeReg addr v
  | .setPower, [.num v] => (fits 16 v).map .setPower
  | .setGain, [.num v] => (fits 16 v).map .setGain
  | .setInteg, [.num v] => (fits 16 v).map .setInteg
  | .setManual, [.num v] => (fits 16 v).map .setManual
  | .setThresh, [.pair p, .num v] => (fits 16 v).map (.setThresh p)
  | .setPersist, [.num v] => (fits 16 v).map .setPersist
  | .setIntMode, [.num v] => (fits 16 v).map .setIntMode
  | .clearInt, [] => some .clearInt
  | .readChipId, [] => some .readChipId
  | .readChannels, [] => some .readChannels
  | .readTiming, [] => some .readTiming
  | _, _ => none

/-- The operation's mnemonic (R99). -/
def mnemonics : List (String × Opcode) :=
  [("READ_REG", .readReg), ("WRITE_REG", .writeReg), ("SET_POWER", .setPower), ("SET_GAIN", .setGain),
    ("SET_INTEG", .setInteg), ("SET_MANUAL", .setManual), ("SET_THRESH", .setThresh), ("SET_PERSIST", .setPersist),
    ("SET_INTMODE", .setIntMode), ("CLEAR_INT", .clearInt), ("READ_CHIPID", .readChipId),
    ("READ_CHANNELS", .readChannels), ("READ_TIMING", .readTiming)]

/-- The pseudo-instruction of a name and its operands (R100). -/
def assemblePseudo (name : String) (args : List AsmOperand) : Option Pseudo :=
  match args with
  | [] =>
    if name = "POWER_ON" then some .powerOn
    else if name = "POWER_OFF" then some .powerOff
    else if name = "GAIN_HIGH" then some .gainHigh
    else if name = "GAIN_LOW" then some .gainLow
    else none
  | [.num v] =>
    if name = "SET_THRESH_LOW" then (fits 16 v).map .setThreshLow
    else if name = "SET_THRESH_HIGH" then (fits 16 v).map .setThreshHigh
    else none
  | _ => none

/-- The word of a name and its operands: an operation, a pseudo-instruction, or the raw-word directive `.word` of
spec/95_test_vectors.md P3. -/
def assembleWord (name : String) (args : List AsmOperand) : Option Word :=
  match mnemonics.lookup name with
  | some o => (assembleOp o args).map encode
  | none =>
    match assemblePseudo name args with
    | some p => some (encode (expand p))
    | none =>
      match args with
      | [.num k] => if name = ".word" then fits 32 k else none
      | _ => none

/-- The value of a digit. -/
def digitValue (c : Char) : Option Nat :=
  if '0' ≤ c ∧ c ≤ '9' then some (c.toNat - '0'.toNat)
  else if 'a' ≤ c ∧ c ≤ 'f' then some (c.toNat - 'a'.toNat + 10)
  else if 'A' ≤ c ∧ c ≤ 'F' then some (c.toNat - 'A'.toNat + 10)
  else none

/-- The value of a run of digits in a base, after those already read. -/
def numeral (base acc : Nat) : List Char → Option Nat
  | [] => some acc
  | c :: cs =>
    match digitValue c with
    | some d => if d < base then numeral base (acc * base + d) cs else none
    | none => none

/-- An operand's text: LOW, HIGH, or a number, decimal or `0x` hexadecimal (R99). -/
def parseOperand (text : List Char) : Option AsmOperand :=
  match text with
  | [] => none
  | ['L', 'O', 'W'] => some (.pair .low)
  | ['H', 'I', 'G', 'H'] => some (.pair .high)
  | '0' :: 'x' :: c :: cs => (numeral 16 0 (c :: cs)).map .num
  | cs => (numeral 10 0 cs).map .num

/-- Every operand's text, or none where one is not an operand. -/
def parseOperands : List (List Char) → Option (List AsmOperand)
  | [] => some []
  | t :: ts => (parseOperand t).bind fun a => (parseOperands ts).map fun as => a :: as

/-- A space or a tab. -/
def isBlank (c : Char) : Bool := c == ' ' || c == '\t'

/-- The text without blanks at its ends. -/
def trimmed (cs : List Char) : List Char := ((cs.dropWhile isBlank).reverse.dropWhile isBlank).reverse

/-- The pieces between commas; nothing at all is no piece. -/
def pieces : List Char → List (List Char)
  | [] => []
  | c :: cs =>
    match pieces cs with
    | [] => if c = ',' then [[], []] else [[c]]
    | p :: ps => if c = ',' then [] :: p :: ps else (c :: p) :: ps

/-- One line: mnemonic, then operands between commas; `;` begins a comment (R99). -/
def assembleLine (line : List Char) : Assembled :=
  let body := trimmed (line.takeWhile (· ≠ ';'))
  let name := body.takeWhile fun c => !isBlank c
  let rest := trimmed (body.dropWhile fun c => !isBlank c)
  if body.isEmpty then .blank
  else
    match parseOperands ((pieces rest).map trimmed) with
    | none => .refused
    | some args =>
      match assembleWord (String.ofList name) args with
      | some w => .word w
      | none => .refused

end Sys2Proof.Machine
end

