-- ==== Sys2Proof/WellFormed.lean ====
section
/-! DEFINITION. Well-formed operations: every used field in its legal range (spec/30_encoding.md R87). -/

namespace Sys2Proof

/-- `InRange` of spec/40_register_access.md R110: the last column of R87's table. -/
def Instr.wellFormed : Instr → Bool
  | .readReg _ n => Machine.readCountLegal n
  | .writeReg _ value => Machine.argAtMost 0xFF value
  | .setPower on => Machine.argIsBool on
  | .setGain high => Machine.argIsBool high
  | .setInteg mode => Machine.argAtMost 3 mode
  | .setManual enable => Machine.argIsBool enable
  | .setThresh _ _ => true
  | .setPersist cycles => Machine.argAtMost 15 cycles
  | .setIntMode mode => Machine.argAtMost 3 mode
  | .clearInt => true
  | .readChipId => true
  | .readChannels => true
  | .readTiming => true

end Sys2Proof
end

