-- ==== Sys2Proof/Machine/Execute.lean ====
section
/-! DEFINITION. The execution frame of spec/40_register_access.md R110 as the spec writes it: one whole request, its
pseudocode run to the end against a list of transport replies. The machine takes the same request one transaction a step
(Machine/Step.lean); this is the clear form a refinement claim compares it with. -/

namespace Sys2Proof.Machine

/-- What the pseudocode of one operation has done so far: the replies left, and the trace (spec/00_scope.md R14). -/
structure Port where
  replies : List Reply
  trace   : List Transaction
deriving DecidableEq, Repr

/-- How a piece of pseudocode ends: with a value, by `raise TransportError()`, or not within the replies given. -/
inductive Ran (α : Type) where
  | done (value : α) (port : Port)
  | raised (port : Port)
  | waits

/-- Statement after statement (R11): a `raise` ends the operation, and no later statement runs. -/
def thenRun {α β : Type} (m : Ran α) (k : α → Port → Ran β) : Ran β :=
  match m with
  | .done a p => k a p
  | .raised p => .raised p
  | .waits => .waits

/-- The first answer the replies give to a frame, and the replies after it. -/
def firstAnswer (f : Frame) : List Reply → Option (Answer × List Reply)
  | [] => none
  | r :: rs =>
    match judge f r with
    | none => firstAnswer f rs
    | some a => some (a, rs)

/-- `TxWrite` and `TxRead` (R10; spec/20_memory.md R60, R61): one transaction, an Err answer raised. -/
def tx (f : Frame) (p : Port) : Ran (List Byte) :=
  match firstAnswer f p.replies with
  | none => .waits
  | some (.err, rs) => .raised ⟨rs, p.trace ++ [⟨f, .err⟩]⟩
  | some (.ok bytes, rs) => .done bytes ⟨rs, p.trace ++ [⟨f, .ok bytes⟩]⟩

/-- `MemRead(addr, n)` (R64). -/
def runMemRead (addr : RegAddr) (n : Nat) (p : Port) : Ran (List Byte) :=
  thenRun (tx (.write1 (cmd addr)) p) fun _ p => tx (.read n) p

/-- `MemWrite(addr, 1, v)` (R65). -/
def runMemWrite (addr : RegAddr) (v : Byte) (p : Port) : Ran Unit :=
  thenRun (tx (.write2 (cmd addr) v) p) fun _ p => .done () p

/-- `RMW(addr, pm, new_bits)` (R111). -/
def runRmw (addr : RegAddr) (preserve new : Byte) (p : Port) : Ran Unit :=
  thenRun (runMemRead addr 1 p) fun b p => runMemWrite addr (rmwByte (byteAt b 0) preserve new) p

/-- `Body[op](d)` (R112, R113; spec/41_field_encoders.md R130 to R137; spec/42_decoders.md R170 to R172). -/
def runBody : Instr → Port → Ran (Code × Word)
  | .readReg addr n, p => thenRun (runMemRead addr n.toNat p) fun b p => .done (.ok, readRegResult n b) p
  | .writeReg addr value, p => thenRun (runMemWrite addr (lsb value) p) fun _ p => .done (.ok, 0#32) p
  | .setPower on, p => thenRun (runMemWrite controlReg (powerByte on) p) fun _ p => .done (.ok, 0#32) p
  | .setGain high, p => thenRun (runRmw timingReg gainPreserve (gainBits high) p) fun _ p => .done (.ok, 0#32) p
  | .setInteg m, p => thenRun (runRmw timingReg integPreserve (integBits m) p) fun _ p => .done (.ok, 0#32) p
  | .setManual e, p => thenRun (runRmw timingReg manualPreserve (manualBits e) p) fun _ p => .done (.ok, 0#32) p
  | .setThresh sel v, p =>
    thenRun (runMemWrite (threshLsbReg sel) (lsb v) p) fun _ p =>
    thenRun (runMemWrite (threshLsbReg sel + 1#4) (msb v) p) fun _ p => .done (.ok, 0#32) p
  | .setPersist c, p => thenRun (runRmw interruptReg persistPreserve (persistBits c) p) fun _ p => .done (.ok, 0#32) p
  | .setIntMode m, p => thenRun (runRmw interruptReg modePreserve (modeBits m) p) fun _ p => .done (intModeCode m, 0#32) p
  | .clearInt, p => thenRun (tx (.write1 clearCmd) p) fun _ p => .done (.ok, 0#32) p
  | .readChipId, p => thenRun (runMemRead idReg 1 p) fun b p => .done (.ok, chipIdResult b) p
  | .readChannels, p => thenRun (runMemRead data0LowReg 4 p) fun b p => .done (.ok, channelsResult b) p
  | .readTiming, p => thenRun (runMemRead timingReg 1 p) fun b p => .done (.ok, timingResult b) p

/-- A response with its trace: what a claim about the block observes (R16), and the replies left over. -/
structure Completed where
  code    : Code
  result  : Word
  trace   : List Transaction
  replies : List Reply
deriving DecidableEq, Repr

/-- `Execute(w)` (R110); none where the replies given do not bring the operation to its response. -/
def execute (w : Word) (replies : List Reply) : Option Completed :=
  match decode w with
  | .illegal _ => some ⟨.illegalRequest, 0#32, [], replies⟩
  | .op i =>
    if i.wellFormed = false then some ⟨.invalidArgument, 0#32, [], replies⟩
    else
      match runBody i ⟨replies, []⟩ with
      | .done (code, r) p => some ⟨code, r, p.trace, p.replies⟩
      | .raised p => some ⟨.transportError, 0#32, p.trace, p.replies⟩
      | .waits => none

end Sys2Proof.Machine
end

