-- ==== Sys2Proof/Safety.lean ====
section
/-! DEFINITION. What the claims are stated in: the frames the block may emit, the invariant every step keeps, and what two
states share that differ only in what the block cannot see. -/

namespace Sys2Proof.Machine

/-- The frames of spec/30_encoding.md R90: the only ones the block can emit. -/
def emittable : Frame → Bool
  | .write1 c => isRegisterSelect c || c == clearCmd
  | .write2 c _ => isRegisterSelect c
  | .read n => decide (1 ≤ n) && decide (n ≤ readMax)

/-- The transaction answered Ok. -/
def answeredOk (t : Transaction) : Bool := decide (t.answer ≠ .err)

/-- An Ok read carries exactly the bytes it asked for (spec/20_memory.md R61). -/
def countRight : Transaction → Bool
  | ⟨.read n, .ok bytes⟩ => decide (bytes.length = n)
  | _ => true

/-- The machine's invariant. It holds at reset, and every step keeps it. -/
structure MachineInv (s : State) : Prop where
  /-- The device record is in canonical form, inside the sixteen locations (spec/20_memory.md R62). -/
  deviceCanonical : Memory.wf s.device = true
  /-- STATUS holds a code that is produced, 0 to 4 (spec/60_exceptions.md R191). -/
  statusProduced : s.status.toNat ≤ 4
  /-- RESULT is 0 whenever STATUS is not (spec/30_encoding.md R94). -/
  resultZero : s.status ≠ 0#3 → s.result = 0#32
  /-- A response is there only once the operation has ended (R195). -/
  responseAtEnd : s.rspValid = true → s.busy = false
  /-- A transaction is outstanding only during an operation (spec/20_memory.md R70). -/
  flightInOperation : s.inFlight ≠ none → s.busy = true
  /-- The outstanding transaction is one the block may emit (R90). -/
  flightEmittable : ∀ f, s.inFlight = some f → emittable f = true
  /-- So is every transaction of the trace (R90). -/
  traceEmittable : ∀ t ∈ s.trace, emittable t.frame = true
  /-- Every Ok read of the trace carries the bytes it asked for (R61). -/
  readsCounted : ∀ t ∈ s.trace, countRight t = true
  /-- Only the last transaction of a trace can have failed (R190). -/
  failureLast : ∀ t ∈ s.trace.dropLast, answeredOk t = true
  /-- During an operation SEQ is the number of its Ok transactions (spec/10_state.md R21, R25). -/
  seqCounts : s.busy = true → s.seq.toNat = s.trace.countP answeredOk
  /-- The longest script has three transactions (R21). -/
  traceShort : s.trace.length ≤ 3

/-- A reply with what the block cannot see of it taken out: whether the device took a failed frame's bytes (R77), and the
bytes that mean nothing. -/
def visibleReply : Reply → Reply
  | .silent => .silent
  | .err _ _ _ => .err false false 0#4
  | .ok bytes => .ok bytes

/-- The state less everything behind the transport: the device record, the selection, and the flags of coming failures. -/
def blockSide (s : State) : State :=
  { s with device := [], select := 0#4, replies := s.replies.map visibleReply }

/-- The reply the transport gives to the `k`-th transaction step from here on. -/
def replyAfter : Nat → State → Reply
  | 0, s => nextReply s
  | k + 1, s => replyAfter k (takeReply s)

/-- The table of spec/30_encoding.md R91 for the operations that read, modify and write back: register, preserve mask and
new bits, for a legal argument; none for every other operation. -/
def rmwOf : Instr → Option (RegAddr × Byte × Byte)
  | .setGain high => some (0x1#4, 0x0B#8, if high = 1#16 then 0x10#8 else 0x00#8)
  | .setInteg m => some (0x1#4, 0x18#8, m.setWidth 8)
  | .setManual enable => some (0x1#4, 0x17#8, if enable = 1#16 then 0x08#8 else 0x00#8)
  | .setPersist cycles => some (0x6#4, 0x30#8, cycles.setWidth 8)
  | .setIntMode m => some (0x6#4, 0x0F#8, m.setWidth 8 <<< 4)
  | _ => none

/-- The device register and the byte that the transaction now due stores, from the parts the meanings use; none where the
operation's next step issues no two-byte write. -/
def nextStore (i : Instr) (s : State) : Option (RegAddr × Byte) :=
  match i with
  | .writeReg addr value => if s.seq = 0#2 then some (addr, lsb value) else none
  | .setPower on => if s.seq = 0#2 then some (controlReg, powerByte on) else none
  | .setThresh sel value =>
    if s.seq = 0#2 then some (threshLsbReg sel, lsb value)
    else if s.seq = 1#2 then some (threshLsbReg sel + 1#4, msb value)
    else none
  | .setGain high => if s.seq = 2#2 then some (timingReg, rmwByte s.mirror gainPreserve (gainBits high)) else none
  | .setInteg m => if s.seq = 2#2 then some (timingReg, rmwByte s.mirror integPreserve (integBits m)) else none
  | .setManual e => if s.seq = 2#2 then some (timingReg, rmwByte s.mirror manualPreserve (manualBits e)) else none
  | .setPersist c => if s.seq = 2#2 then some (interruptReg, rmwByte s.mirror persistPreserve (persistBits c)) else none
  | .setIntMode m => if s.seq = 2#2 then some (interruptReg, rmwByte s.mirror modePreserve (modeBits m)) else none
  | .readReg _ _ => none
  | .clearInt => none
  | .readChipId => none
  | .readChannels => none
  | .readTiming => none

/-- The host's present event is not a reset. -/
def noResetNow (s : State) : Prop := ∀ rest, s.host ≠ .reset :: rest

end Sys2Proof.Machine
end

