-- ==== Sys2Proof/Certificates/Slice0/Obligations.lean ====
section
/-! DEFINITION. The statements for the provers, each with the rules of spec/ it formalises. -/

open Sys2Proof Sys2Proof.Machine

/-! ### Encoding -/

/-- One word of every operation, written out from the patterns of spec/30_encoding.md section 4 (and the words of R100 and
spec/95_test_vectors.md), and words of the reserved space (R95). -/
def Obligations.SpecWordsDecode : Prop :=
  decode 0x1C200000#32 = .op (.readReg 0xC#4 2#4) ∧
  decode 0x26000020#32 = .op (.writeReg 0x6#4 0x20#16) ∧
  decode 0x30000001#32 = .op (.setPower 1#16) ∧
  decode 0x40000001#32 = .op (.setGain 1#16) ∧
  decode 0x50000004#32 = .op (.setInteg 4#16) ∧
  decode 0x60000001#32 = .op (.setManual 1#16) ∧
  decode 0x7000012C#32 = .op (.setThresh .low 300#16) ∧
  decode 0x7001ABCD#32 = .op (.setThresh .high 0xABCD#16) ∧
  decode 0x8000000F#32 = .op (.setPersist 15#16) ∧
  decode 0x90000002#32 = .op (.setIntMode 2#16) ∧
  decode 0xA0000000#32 = .op .clearInt ∧
  decode 0xB0000000#32 = .op .readChipId ∧
  decode 0xC0000000#32 = .op .readChannels ∧
  decode 0xD0000000#32 = .op .readTiming ∧
  decode 0x00000000#32 = .illegal .reservedOp ∧
  decode 0xE0000000#32 = .illegal .reservedOp ∧
  decode 0xFFFFFFFF#32 = .illegal .reservedOp ∧
  decode 0x51000009#32 = .illegal .unusedFieldNonzero ∧
  decode 0x70020000#32 = .illegal .unusedFieldNonzero ∧
  decode 0xA0000001#32 = .illegal .unusedFieldNonzero

/-- Every operation, at every field value the encoding admits (legal or not, R99), is read back from its own word. -/
def Obligations.DecodeOfEncode : Prop :=
  ∀ i : Instr, decode (encode i) = .op i

/-- A word that decodes to an operation is that operation's word: no bit is dropped, and no two words spell one operation. -/
def Obligations.EncodeOfDecode : Prop :=
  ∀ (w : Word) (i : Instr), decode w = .op i → encode i = w

/-- R98 with the match and mask columns of section 4 written out: a row's operation, with the fields of R87, exactly where
the word meets the row's pattern; IllegalRequest where it meets none, for a reserved OP exactly where OP is 0x0, 0xE or 0xF. -/
def Obligations.DecodeFollowsOpcodeTable : Prop :=
  ∀ w : Word,
    (w &&& 0xF00FFFFF#32 = 0x10000000#32 → decode w = .op (.readReg (w.extractLsb' 24 4) (w.extractLsb' 20 4))) ∧
    (w &&& 0xF0FF0000#32 = 0x20000000#32 → decode w = .op (.writeReg (w.extractLsb' 24 4) (w.extractLsb' 0 16))) ∧
    (w &&& 0xFFFF0000#32 = 0x30000000#32 → decode w = .op (.setPower (w.extractLsb' 0 16))) ∧
    (w &&& 0xFFFF0000#32 = 0x40000000#32 → decode w = .op (.setGain (w.extractLsb' 0 16))) ∧
    (w &&& 0xFFFF0000#32 = 0x50000000#32 → decode w = .op (.setInteg (w.extractLsb' 0 16))) ∧
    (w &&& 0xFFFF0000#32 = 0x60000000#32 → decode w = .op (.setManual (w.extractLsb' 0 16))) ∧
    (w &&& 0xFFFE0000#32 = 0x70000000#32 →
      decode w = .op (.setThresh (if w.extractLsb' 16 1 = 0#1 then .low else .high) (w.extractLsb' 0 16))) ∧
    (w &&& 0xFFFF0000#32 = 0x80000000#32 → decode w = .op (.setPersist (w.extractLsb' 0 16))) ∧
    (w &&& 0xFFFF0000#32 = 0x90000000#32 → decode w = .op (.setIntMode (w.extractLsb' 0 16))) ∧
    (w = 0xA0000000#32 → decode w = .op .clearInt) ∧
    (w = 0xB0000000#32 → decode w = .op .readChipId) ∧
    (w = 0xC0000000#32 → decode w = .op .readChannels) ∧
    (w = 0xD0000000#32 → decode w = .op .readTiming) ∧
    (w &&& 0xF00FFFFF#32 ≠ 0x10000000#32 → w &&& 0xF0FF0000#32 ≠ 0x20000000#32 →
      w &&& 0xFFFF0000#32 ∉ [0x30000000#32, 0x40000000#32, 0x50000000#32, 0x60000000#32, 0x80000000#32, 0x90000000#32] →
      w &&& 0xFFFE0000#32 ≠ 0x70000000#32 → w ∉ [0xA0000000#32, 0xB0000000#32, 0xC0000000#32, 0xD0000000#32] →
      ∃ why, decode w = .illegal why) ∧
    (decode w = .illegal .reservedOp ↔ w.extractLsb' 28 4 ∈ [0x0#4, 0xE#4, 0xF#4])

/-- R100: the pseudo-instructions, their expansions and their words, for every threshold. -/
def Obligations.PseudoInstructionsExpand : Prop :=
  expand .powerOn = .setPower 1#16 ∧ encode (expand .powerOn) = 0x30000001#32 ∧
  expand .powerOff = .setPower 0#16 ∧ encode (expand .powerOff) = 0x30000000#32 ∧
  expand .gainHigh = .setGain 1#16 ∧ encode (expand .gainHigh) = 0x40000001#32 ∧
  expand .gainLow = .setGain 0#16 ∧ encode (expand .gainLow) = 0x40000000#32 ∧
  ∀ v : Half,
    expand (.setThreshLow v) = .setThresh .low v ∧ encode (expand (.setThreshLow v)) = 0x70000000#32 ||| v.setWidth 32 ∧
    expand (.setThreshHigh v) = .setThresh .high v ∧ encode (expand (.setThreshHigh v)) = 0x70010000#32 ||| v.setWidth 32

/-- R99: the assembler refuses a value that does not fit its field, and assembles one that fits, legal or not. -/
def Obligations.AssemblerFitsFields : Prop :=
  (∀ a n, assembleOp .readReg [.num a, .num n] =
    if a ≤ 15 ∧ n ≤ 15 then some (.readReg (BitVec.ofNat 4 a) (BitVec.ofNat 4 n)) else none) ∧
  (∀ a v, assembleOp .writeReg [.num a, .num v] =
    if a ≤ 15 ∧ v ≤ 0xFFFF then some (.writeReg (BitVec.ofNat 4 a) (BitVec.ofNat 16 v)) else none) ∧
  (∀ p v, assembleOp .setThresh [.pair p, .num v] =
    if v ≤ 0xFFFF then some (.setThresh p (BitVec.ofNat 16 v)) else none) ∧
  ∀ v,
    assembleOp .setPower [.num v] = (if v ≤ 0xFFFF then some (.setPower (BitVec.ofNat 16 v)) else none) ∧
    assembleOp .setGain [.num v] = (if v ≤ 0xFFFF then some (.setGain (BitVec.ofNat 16 v)) else none) ∧
    assembleOp .setInteg [.num v] = (if v ≤ 0xFFFF then some (.setInteg (BitVec.ofNat 16 v)) else none) ∧
    assembleOp .setManual [.num v] = (if v ≤ 0xFFFF then some (.setManual (BitVec.ofNat 16 v)) else none) ∧
    assembleOp .setPersist [.num v] = (if v ≤ 0xFFFF then some (.setPersist (BitVec.ofNat 16 v)) else none) ∧
    assembleOp .setIntMode [.num v] = (if v ≤ 0xFFFF then some (.setIntMode (BitVec.ofNat 16 v)) else none)

/-- The legal ranges of R87's last column, operation by operation. -/
def Obligations.LegalArgumentRanges : Prop :=
  (∀ addr n, (Instr.readReg addr n).wellFormed = true ↔ 1 ≤ n.toNat ∧ n.toNat ≤ 4) ∧
  (∀ addr v, (Instr.writeReg addr v).wellFormed = true ↔ v.toNat ≤ 0xFF) ∧
  (∀ v, (Instr.setPower v).wellFormed = true ↔ v = 0#16 ∨ v = 1#16) ∧
  (∀ v, (Instr.setGain v).wellFormed = true ↔ v = 0#16 ∨ v = 1#16) ∧
  (∀ v, (Instr.setInteg v).wellFormed = true ↔ v.toNat ≤ 3) ∧
  (∀ v, (Instr.setManual v).wellFormed = true ↔ v = 0#16 ∨ v = 1#16) ∧
  (∀ sel v, (Instr.setThresh sel v).wellFormed = true) ∧
  (∀ v, (Instr.setPersist v).wellFormed = true ↔ v.toNat ≤ 15) ∧
  (∀ v, (Instr.setIntMode v).wellFormed = true ↔ v.toNat ≤ 3) ∧
  Instr.clearInt.wellFormed = true ∧ Instr.readChipId.wellFormed = true ∧
  Instr.readChannels.wellFormed = true ∧ Instr.readTiming.wellFormed = true

/-- R63: the register-select byte is 0x80 with the address in its low bits: bit 7 set, bits 6:4 clear, bits 3:0 the address. -/
def Obligations.RegisterSelectByte : Prop :=
  ∀ addr : RegAddr, cmd addr = 0x80#8 ||| addr.setWidth 8 ∧ (cmd addr).extractLsb' 7 1 = 1#1 ∧
    (cmd addr).extractLsb' 4 3 = 0#3 ∧ (cmd addr).extractLsb' 0 4 = addr

/-- R92: the two bytes of a threshold, and that together they are the threshold; 300 gives 0x2C and 0x01. -/
def Obligations.ThresholdSplit : Prop :=
  (∀ v : Half, lsb v = v.extractLsb' 0 8 ∧ lsb v = (v &&& 0xFF#16).setWidth 8 ∧
    msb v = v.extractLsb' 8 8 ∧ msb v = (v >>> 8).setWidth 8 ∧
    v.toNat = (msb v).toNat * 256 + (lsb v).toNat) ∧
  lsb 300#16 = 0x2C#8 ∧ msb 300#16 = 0x01#8

/-- R173: the decode functions, and that each decodes what its encoder wrote while the other fields stay. -/
def Obligations.FieldsRoundTrip : Prop :=
  (∀ b : Byte, chipId b = b.extractLsb' 4 4 ∧ gain b = b.extractLsb' 4 1 ∧ integ b = b.extractLsb' 0 2 ∧
    manual b = b.extractLsb' 3 1 ∧ persist b = b.extractLsb' 0 4 ∧ mode b = b.extractLsb' 4 2) ∧
  (∀ lo hi : Byte, (u16le lo hi).toNat = hi.toNat * 256 + lo.toNat) ∧
  ∀ (cur : Byte) (i : Instr) (addr : RegAddr) (pm nb : Byte), i.wellFormed = true → rmwOf i = some (addr, pm, nb) →
    pm &&& nb = 0#8 ∧ rmwByte cur pm nb &&& pm = cur &&& pm ∧
    (∀ high, i = .setGain high → (gain (rmwByte cur pm nb)).toNat = high.toNat ∧
      integ (rmwByte cur pm nb) = integ cur ∧ manual (rmwByte cur pm nb) = manual cur) ∧
    (∀ m, i = .setInteg m → (integ (rmwByte cur pm nb)).toNat = m.toNat ∧
      gain (rmwByte cur pm nb) = gain cur ∧ manual (rmwByte cur pm nb) = manual cur) ∧
    (∀ e, i = .setManual e → (manual (rmwByte cur pm nb)).toNat = e.toNat ∧
      gain (rmwByte cur pm nb) = gain cur ∧ integ (rmwByte cur pm nb) = integ cur) ∧
    (∀ c, i = .setPersist c → (persist (rmwByte cur pm nb)).toNat = c.toNat ∧ mode (rmwByte cur pm nb) = mode cur) ∧
    (∀ m, i = .setIntMode m → (mode (rmwByte cur pm nb)).toNat = m.toNat ∧ persist (rmwByte cur pm nb) = persist cur)

/-! ### The machine's step -/

/-- R44: BUSY, SEQ, STATUS and RESULT after reset, and that the block then waits for a request: with none presented it
stays idle and issues nothing, and the first one presented is accepted. -/
def Obligations.ResetLeavesIdle : Prop :=
  State.reset.busy = false ∧ State.reset.seq = 0#2 ∧ State.reset.status = 0#3 ∧ State.reset.result = 0#32 ∧
  reqReady State.reset = true ∧
  (∀ host : List HostEvent, presented { State.reset with host := host } = none →
    ∃ t, step { State.reset with host := host } = .next t ∧ t.busy = false ∧ t.rspValid = false ∧ t.inFlight = none ∧
      t.trace = [] ∧ t.status = 0#3 ∧ t.result = 0#32) ∧
  (∀ (host : List HostEvent) (w : Word), presented { State.reset with host := host } = some w →
    ∃ t, step { State.reset with host := host } = .next t ∧ t.busy = true ∧ t.req = w ∧ t.seq = 0#2)

/-- The invariant holds at reset. That RSP_VALID is 0 and the device record empty there is the model's choice (log entries 2
and 5, DESIGN CHOICE). -/
def Obligations.ResetMeetsInv : Prop := MachineInv State.reset

/-- Every step keeps the invariant, from every state that meets it. -/
def Obligations.StepKeepsInv : Prop :=
  ∀ s t : State, MachineInv s → step s = .next t → MachineInv t

/-- A step runs the decoded operation: a busy block that is not being reset takes one step of the operation REQ holds,
after the host has dropped what it only offered; and so does the state in which the host has placed a word. -/
def Obligations.StepRunsDecodedInstruction : Prop :=
  (∀ (s : State) (i : Instr), s.busy = true → noResetNow s → decode s.req = .op i → step s = exec i (hostWaits s)) ∧
  (∀ (s : State) (nbits w : Nat) (i : Instr), decodeTableWord nbits w = some i →
    step (s.withFetchWord nbits w) = exec i (hostWaits (s.withFetchWord nbits w)))

/-- No state stops the machine. That no step stops is the model's choice (log entry 15, DESIGN CHOICE), in states no run
reaches too (log entry 8, DESIGN CHOICE), and on a silent transport the step that waits (log entry 16, DEDUCED); of the
spec it has that each error is an outcome with a response. -/
def Obligations.EveryStepAnswers : Prop :=
  (∀ s : State, ∃ t, step s = .next t) ∧ ∀ (i : Instr) (s : State), ∃ t, exec i s = .next t

/-- R80, R23, R24: an idle block accepts the request presented, held or only offered; an idle block with none waits. That
RSP_VALID falls and a new trace begins in that step is the model's choice (log entries 2 and 7, DESIGN CHOICE), and so is
that MIRROR keeps its byte in it (log entry 19, DESIGN CHOICE). -/
def Obligations.AcceptanceLatchesRequest : Prop :=
  (∀ (s : State) (w : Word) (rest : List HostEvent), s.busy = false →
    s.host = .request w :: rest ∨ s.host = .offer w :: rest →
    step s = .next { s with req := w, busy := true, seq := 0#2, trace := [], inFlight := none, rspValid := false, host := rest }) ∧
  (∀ (s : State) (rest : List HostEvent), s.busy = false → s.host = .quiet :: rest →
    step s = .next { s with rspValid := false, host := rest }) ∧
  (∀ s : State, s.busy = false → s.host = [] → step s = .next { s with rspValid := false })

/-- R227: a request presented to a busy block is not accepted, stays presented, and changes nothing of the running step; one
that is dropped has issued nothing. -/
def Obligations.BusyBlockLeavesRequestPresented : Prop :=
  (∀ (s t : State) (w : Word) (rest : List HostEvent), s.busy = true → s.host = .request w :: rest → step s = .next t →
    t.host = .request w :: rest ∧ t.req = s.req ∧ step { s with host := [] } = .next { t with host := [] }) ∧
  (∀ (s t : State) (w : Word) (rest : List HostEvent), s.busy = true → s.host = .offer w :: rest → step s = .next t →
    t.host = rest ∧ t.req = s.req ∧ step { s with host := [] } = .next { t with host := [] })

/-- R221 (and R220 for the values): a reset, of a busy block or an idle one, gives no response and issues nothing; with
nothing in flight the device and the transport stay as they are; a two-byte write in flight was taken or was not, a
one-byte one left the selection or moved it, after a clear command to any register (R77). The model's own choices: that a
reset and a read leave the recorded selection (log entry 6, DESIGN CHOICE), that a clear command or a read in flight leaves
the device record, which U14 and R75 leave open (log entry 5, DESIGN CHOICE), that a register select in flight leaves one of
two registers (log entry 11, DEDUCED), and that the next reply draws the outcome (log entry 10, DESIGN CHOICE). -/
def Obligations.ResetAbandonsOperation : Prop :=
  (∀ (s : State) (rest : List HostEvent), s.host = .reset :: rest →
    ∃ t, step s = .next t ∧ t.busy = false ∧ t.rspValid = false ∧ t.inFlight = none ∧ t.host = rest ∧
      t.seq = 0#2 ∧ t.status = 0#3 ∧ t.result = 0#32 ∧
      (s.inFlight = none →
        t.device = s.device ∧ t.select = s.select ∧ t.replies = s.replies ∧ t.draws = s.draws) ∧
      (∀ c v, s.inFlight = some (.write2 c v) →
        t.device = s.device ∨ t.device = Memory.write s.device (selectedRegister c).toNat v) ∧
      (∀ c, s.inFlight = some (.write1 c) → t.device = s.device) ∧
      (∀ a, s.inFlight = some (.write1 (cmd a)) → t.select = s.select ∨ t.select = a) ∧
      (∀ n, s.inFlight = some (.read n) → t.device = s.device ∧ t.select = s.select)) ∧
  (∀ (s : State) (rest : List HostEvent) (c v : Byte) (taken : Bool), s.host = .reset :: rest →
    s.inFlight = some (.write2 c v) →
    ∃ r t, step { s with replies := r :: s.replies } = .next t ∧
      t.device = if taken = true then Memory.write s.device (selectedRegister c).toNat v else s.device) ∧
  (∀ (s : State) (rest : List HostEvent) (a : RegAddr), s.host = .reset :: rest → s.inFlight = some (.write1 0xE0#8) →
    ∃ r t, step { s with replies := r :: s.replies } = .next t ∧ t.select = a)

/-! ### Rejections, errors and their order -/

/-- R194: a word that spells no operation ends with (4, 0) before any transaction, one step after its acceptance. -/
def Obligations.IllegalWordEndsAtOnce : Prop :=
  (∀ (s : State) (why : IllegalReason), s.busy = true → noResetNow s → decode s.req = .illegal why →
    step s = .next { hostWaits s with status := 4#3, result := 0#32, busy := false, rspValid := true, inFlight := none }) ∧
  (∀ (s : State) (w : Word) (why : IllegalReason), s.busy = false → s.host = [.request w] → decode w = .illegal why →
    ∃ u t, step s = .next u ∧ step u = .next t ∧ t.rspValid = true ∧ rspStatus t = 4#3 ∧ rspResult t = 0#32 ∧
      t.busy = false ∧ t.trace = [] ∧ t.device = s.device ∧ t.select = s.select ∧ t.replies = s.replies ∧ t.draws = s.draws)

/-- R193: an argument out of its legal range ends the operation with (2, 0) before any transaction, read or write. -/
def Obligations.OutOfRangeEndsAtOnce : Prop :=
  (∀ (i : Instr) (s : State), i.wellFormed = false →
    exec i s = .next { s with status := 2#3, result := 0#32, busy := false, rspValid := true, inFlight := none }) ∧
  (∀ (s : State) (i : Instr), s.busy = false → s.host = [.request (encode i)] → i.wellFormed = false →
    ∃ u t, step s = .next u ∧ step u = .next t ∧ t.rspValid = true ∧ rspStatus t = 2#3 ∧ rspResult t = 0#32 ∧
      t.busy = false ∧ t.trace = [] ∧ t.device = s.device ∧ t.select = s.select ∧ t.replies = s.replies ∧ t.draws = s.draws)

/-- R190: once a transaction of an operation has answered Err, the operation ends with (1, 0): no further transaction, and
what was completed stays. The failing transaction is the last one, and every earlier one was Ok. -/
def Obligations.TransportErrorEndsOperation : Prop :=
  (∀ (i : Instr) (s : State) (pre : List Transaction) (f : Frame), i.wellFormed = true → s.trace = pre ++ [⟨f, .err⟩] →
    exec i s = .next { s with status := 1#3, result := 0#32, busy := false, rspValid := true, inFlight := none }) ∧
  (∀ (s : State) (pre : List Transaction) (x : Transaction), MachineInv s → s.trace = pre ++ [x] → ∀ y ∈ pre, y.answer ≠ .err)

/-- R192: TransportError is reported exactly where the last transaction answered Err, and a transaction answers Err exactly
where the transport says so or a read returns another count than it asked for. Beyond the code nothing is recorded. -/
def Obligations.TransportErrorCauses : Prop :=
  (∀ (i : Instr) (s : State), (∃ t, exec i s = .next t ∧ t.rspValid = true ∧ t.status = 1#3) ↔
    i.wellFormed = true ∧ ∃ pre f, s.trace = pre ++ [⟨f, .err⟩]) ∧
  (∀ (i : Instr) (s t : State), exec i s = .next t → t.rspValid = true → t.status = 1#3 →
    t = { s with status := 1#3, result := 0#32, busy := false, rspValid := true, inFlight := none }) ∧
  (∀ (i : Instr) (s t : State) (f : Frame), exec i s = .next t → t.trace = s.trace ++ [⟨f, .err⟩] →
    (∃ c d e, nextReply s = .err c d e) ∨ ∃ n bytes, f = .read n ∧ nextReply s = .ok bytes ∧ bytes.length ≠ n) ∧
  (∀ (i : Instr) (s t : State) (c d : Bool) (e : RegAddr), exec i s = .next t → t.rspValid = false → nextReply s = .err c d e →
    ∃ f, t.trace = s.trace ++ [⟨f, .err⟩]) ∧
  (∀ (i : Instr) (s t : State) (bytes : List Byte) (x : Transaction), exec i s = .next t → nextReply s = .ok bytes →
    t.trace = s.trace ++ [x] → ∀ n, x.frame = .read n → bytes.length ≠ n → x.answer = .err)

/-- R197: the one code a response carries, in the order of the rule. -/
def Obligations.OutcomePriority : Prop :=
  (∀ s t : State, s.busy = true → noResetNow s → step s = .next t → t.rspValid = true →
    (∀ why, decode s.req = .illegal why → t.status = 4#3) ∧
    (∀ i, decode s.req = .op i →
      (i.wellFormed = false → t.status = 2#3) ∧
      (i.wellFormed = true → (∃ pre f, s.trace = pre ++ [⟨f, .err⟩]) → t.status = 1#3) ∧
      (i.wellFormed = true → (∀ pre f, s.trace ≠ pre ++ [⟨f, .err⟩]) →
        (i = .setIntMode 2#16 → t.status = 3#3) ∧ (i ≠ .setIntMode 2#16 → t.status = 0#3)))) ∧
  (∃ why, decode 0x51000009#32 = .illegal why)

/-- R195: a response is produced exactly by the step that ends an operation, and it is (STATUS, RESULT); a reset produces
none (R221). That RSP_VALID is 1 in that step's state alone is log entry 2, and that RSP_STATUS and RSP_RESULT are STATUS and
RESULT without a response too is log entry 20 (DESIGN CHOICE both). -/
def Obligations.ResponseExactlyAtTheEnd : Prop :=
  ∀ s t : State, step s = .next t →
    (noResetNow s → (t.rspValid = true ↔ s.busy = true ∧ t.busy = false)) ∧
    ((∃ rest, s.host = .reset :: rest) → t.rspValid = false) ∧
    rspStatus t = t.status ∧ rspResult t = t.result

/-- R94: RESULT at a response, operation by operation, from the bytes of the operation's last read; 0 under any code but Ok. -/
def Obligations.ResultLayout : Prop :=
  ∀ (i : Instr) (s t : State), exec i s = .next t → t.rspValid = true →
    (t.status ≠ 0#3 → t.result = 0#32) ∧
    (t.status = 0#3 →
      match i with
      | .readReg _ n => ∀ (pre : List Transaction) (bytes : List Byte), s.trace = pre ++ [⟨.read n.toNat, .ok bytes⟩] → bytes.length = n.toNat →
          (∀ (k : Nat) (h : k < bytes.length), t.result.extractLsb' (8 * k) 8 = bytes[k]) ∧ t.result.toNat < 2 ^ (8 * n.toNat)
      | .readChipId => ∀ (pre : List Transaction) (b : Byte), s.trace = pre ++ [⟨.read 1, .ok [b]⟩] → t.result = (b >>> 4).setWidth 32
      | .readChannels => ∀ (pre : List Transaction) (b0 b1 b2 b3 : Byte), s.trace = pre ++ [⟨.read 4, .ok [b0, b1, b2, b3]⟩] →
          (t.result.extractLsb' 0 16).toNat = b1.toNat * 256 + b0.toNat ∧
          (t.result.extractLsb' 16 16).toNat = b3.toNat * 256 + b2.toNat
      | .readTiming => ∀ (pre : List Transaction) (b : Byte), s.trace = pre ++ [⟨.read 1, .ok [b]⟩] →
          t.result.extractLsb' 0 8 = b ∧ t.result.extractLsb' 8 1 = b.extractLsb' 4 1 ∧
          t.result.extractLsb' 9 2 = b.extractLsb' 0 2 ∧ t.result.extractLsb' 11 1 = b.extractLsb' 3 1 ∧
          t.result.extractLsb' 12 20 = 0#20
      | _ => t.result = 0#32)

/-! ### Every operation, to its response

Each statement gives every step of the operation on an obliging transport, and the whole state after the response: what it
leaves unchanged is what the last state takes from `s`. What such a state says of the device record and of the recorded
selection is the model's choice (log entries 5 and 6, DESIGN CHOICE) beyond the bytes a write sends, and each says so; that
MIRROR keeps its byte is log entry 19 (DESIGN CHOICE). That a write answered Ok is stored as sent, at every address and in
every bit, is log entry 22 (DESIGN CHOICE). -/

/-- READ_REG (R112), N in 1..4. That the selection recorded is then `addr` is log entry 6, and that a read leaves the device
record log entry 5 (DESIGN CHOICE both). -/
def Obligations.ReadRegCompletes : Prop :=
  ∀ (s : State) (addr : RegAddr) (n : BitVec 4) (b0 bytes : List Byte), s.trace = [] → s.seq = 0#2 →
    1 ≤ n.toNat → n.toNat ≤ 4 → replyAfter 0 s = .ok b0 → replyAfter 1 s = .ok bytes → bytes.length = n.toNat →
    ∃ s1 s2 t, exec (.readReg addr n) s = .next s1 ∧ exec (.readReg addr n) s1 = .next s2 ∧
      exec (.readReg addr n) s2 = .next t ∧
      t = { takeReply (takeReply s) with
            seq := 2#2, busy := false, status := 0#3, result := packBytes bytes, rspValid := true, inFlight := none,
            trace := [⟨.write1 (0x80#8 ||| addr.setWidth 8), .ok []⟩, ⟨.read n.toNat, .ok bytes⟩], select := addr }

/-- WRITE_REG (R113), any register and any value that fits a byte: no field rule applies, MODE 2 in INTERRUPT included.
That the selection recorded is then `addr` is log entry 6, that a write of 0x00 to CONTROL leaves every other register of
the record log entry 21, and that the device stores the byte at whatever address log entry 22 (DESIGN CHOICE all). -/
def Obligations.WriteRegCompletes : Prop :=
  ∀ (s : State) (addr : RegAddr) (value : Half) (b0 : List Byte), s.trace = [] → s.seq = 0#2 → value.toNat ≤ 0xFF →
    replyAfter 0 s = .ok b0 →
    ∃ s1 t, exec (.writeReg addr value) s = .next s1 ∧ exec (.writeReg addr value) s1 = .next t ∧
      t = { takeReply s with
            seq := 1#2, busy := false, status := 0#3, result := 0#32, rspValid := true, inFlight := none,
            trace := [⟨.write2 (0x80#8 ||| addr.setWidth 8) (value.setWidth 8), .ok []⟩], select := addr,
            device := Memory.write s.device addr.toNat (value.setWidth 8) }

/-- SET_POWER (R130): a blind write of 0x03 or 0x00 to CONTROL. That the selection recorded is then 0 is log entry 6, and
that powering off leaves every other register of the record log entry 21, and that the device stores the byte log entry 22
(DESIGN CHOICE all). -/
def Obligations.SetPowerCompletes : Prop :=
  ∀ (s : State) (on : Half) (b0 : List Byte), s.trace = [] → s.seq = 0#2 → on = 0#16 ∨ on = 1#16 →
    replyAfter 0 s = .ok b0 →
    ∃ s1 t, exec (.setPower on) s = .next s1 ∧ exec (.setPower on) s1 = .next t ∧
      t = { takeReply s with
            seq := 1#2, busy := false, status := 0#3, result := 0#32, rspValid := true, inFlight := none,
            trace := [⟨.write2 0x80#8 (if on = 1#16 then 0x03#8 else 0x00#8), .ok []⟩], select := 0#4,
            device := Memory.write s.device 0 (if on = 1#16 then 0x03#8 else 0x00#8) }

/-- The operations that read, modify and write back (R131, R132, R133, R135, R136; the masks and new bits of R91): four
steps, MIRROR holding the byte read, and the write-back computed from it. Only SET_INTMODE 2 reports 3 (R196). That the
selection recorded is then `addr` is log entry 6, that the read leaves the device record log entry 5, that MIRROR still
holds its byte at the response log entry 19, and that the device stores the byte in all its bits log entry 22 (DESIGN CHOICE
all). -/
def Obligations.RmwOperationsComplete : Prop :=
  ∀ (i : Instr) (addr : RegAddr) (pm nb : Byte) (s : State) (b0 b2 : List Byte) (cur : Byte),
    rmwOf i = some (addr, pm, nb) → i.wellFormed = true → s.trace = [] → s.seq = 0#2 →
    replyAfter 0 s = .ok b0 → replyAfter 1 s = .ok [cur] → replyAfter 2 s = .ok b2 →
    ∃ s1 s2 s3 t, exec i s = .next s1 ∧ exec i s1 = .next s2 ∧ exec i s2 = .next s3 ∧ exec i s3 = .next t ∧
      t = { takeReply (takeReply (takeReply s)) with
            seq := 3#2, mirror := cur, busy := false, status := if i = .setIntMode 2#16 then 3#3 else 0#3, result := 0#32,
            rspValid := true, inFlight := none,
            trace := [⟨.write1 (0x80#8 ||| addr.setWidth 8), .ok []⟩, ⟨.read 1, .ok [cur]⟩,
              ⟨.write2 (0x80#8 ||| addr.setWidth 8) ((cur &&& pm) ||| nb), .ok []⟩],
            select := addr, device := Memory.write s.device addr.toNat ((cur &&& pm) ||| nb) }

/-- SET_GAIN (R131): TIMING keeps bits 0, 1 and 3, takes `high` in bit 4, and has 0 elsewhere. That the device
stores the byte in all its bits is log entry 22 (DESIGN CHOICE). -/
def Obligations.SetGainWritesTiming : Prop :=
  ∀ (s : State) (high : Half) (b0 b2 : List Byte) (cur : Byte), high = 0#16 ∨ high = 1#16 → s.trace = [] → s.seq = 0#2 →
    replyAfter 0 s = .ok b0 → replyAfter 1 s = .ok [cur] → replyAfter 2 s = .ok b2 →
    ∃ s1 s2 s3 t, exec (.setGain high) s = .next s1 ∧ exec (.setGain high) s1 = .next s2 ∧
      exec (.setGain high) s2 = .next s3 ∧ exec (.setGain high) s3 = .next t ∧ t.rspValid = true ∧ t.status = 0#3 ∧
      ∃ new, Memory.read t.device 1 = some new ∧
        t.trace = [⟨.write1 0x81#8, .ok []⟩, ⟨.read 1, .ok [cur]⟩, ⟨.write2 0x81#8 new, .ok []⟩] ∧
        new.getLsbD 0 = cur.getLsbD 0 ∧ new.getLsbD 1 = cur.getLsbD 1 ∧ new.getLsbD 3 = cur.getLsbD 3 ∧
        new.getLsbD 4 = high.getLsbD 0 ∧ new.getLsbD 2 = false ∧ new.getLsbD 5 = false ∧ new.getLsbD 6 = false ∧
        new.getLsbD 7 = false

/-- SET_INTEG (R132): TIMING keeps bits 3 and 4, takes `mode` in bits 1:0, and has 0 elsewhere. That the device stores the
byte in all its bits is log entry 22 (DESIGN CHOICE). -/
def Obligations.SetIntegWritesTiming : Prop :=
  ∀ (s : State) (m : Half) (b0 b2 : List Byte) (cur : Byte), m.toNat ≤ 3 → s.trace = [] → s.seq = 0#2 →
    replyAfter 0 s = .ok b0 → replyAfter 1 s = .ok [cur] → replyAfter 2 s = .ok b2 →
    ∃ s1 s2 s3 t, exec (.setInteg m) s = .next s1 ∧ exec (.setInteg m) s1 = .next s2 ∧
      exec (.setInteg m) s2 = .next s3 ∧ exec (.setInteg m) s3 = .next t ∧ t.rspValid = true ∧ t.status = 0#3 ∧
      ∃ new, Memory.read t.device 1 = some new ∧
        t.trace = [⟨.write1 0x81#8, .ok []⟩, ⟨.read 1, .ok [cur]⟩, ⟨.write2 0x81#8 new, .ok []⟩] ∧
        new.getLsbD 0 = m.getLsbD 0 ∧ new.getLsbD 1 = m.getLsbD 1 ∧ new.getLsbD 3 = cur.getLsbD 3 ∧
        new.getLsbD 4 = cur.getLsbD 4 ∧ new.getLsbD 2 = false ∧ new.getLsbD 5 = false ∧ new.getLsbD 6 = false ∧
        new.getLsbD 7 = false

/-- SET_MANUAL (R133, C2): TIMING keeps bits 0, 1, 2 and 4, takes `enable` in bit 3, and has 0 elsewhere. That the device
stores the byte in all its bits is log entry 22 (DESIGN CHOICE). -/
def Obligations.SetManualWritesTiming : Prop :=
  ∀ (s : State) (e : Half) (b0 b2 : List Byte) (cur : Byte), e = 0#16 ∨ e = 1#16 → s.trace = [] → s.seq = 0#2 →
    replyAfter 0 s = .ok b0 → replyAfter 1 s = .ok [cur] → replyAfter 2 s = .ok b2 →
    ∃ s1 s2 s3 t, exec (.setManual e) s = .next s1 ∧ exec (.setManual e) s1 = .next s2 ∧
      exec (.setManual e) s2 = .next s3 ∧ exec (.setManual e) s3 = .next t ∧ t.rspValid = true ∧ t.status = 0#3 ∧
      ∃ new, Memory.read t.device 1 = some new ∧
        t.trace = [⟨.write1 0x81#8, .ok []⟩, ⟨.read 1, .ok [cur]⟩, ⟨.write2 0x81#8 new, .ok []⟩] ∧
        new.getLsbD 0 = cur.getLsbD 0 ∧ new.getLsbD 1 = cur.getLsbD 1 ∧ new.getLsbD 2 = cur.getLsbD 2 ∧
        new.getLsbD 4 = cur.getLsbD 4 ∧ new.getLsbD 3 = e.getLsbD 0 ∧ new.getLsbD 5 = false ∧ new.getLsbD 6 = false ∧
        new.getLsbD 7 = false

/-- SET_THRESH (R134): the LSB to the lower address, then the MSB to the higher one, for either pair and every value.
That the selection recorded is then the higher address is log entry 6, and that the device stores both bytes log entry 22
(DESIGN CHOICE both). -/
def Obligations.SetThreshCompletes : Prop :=
  ∀ (s : State) (sel : ThreshPair) (value : Half) (b0 b1 : List Byte) (lo hi : RegAddr), s.trace = [] → s.seq = 0#2 →
    (sel = .low → lo = 0x2#4 ∧ hi = 0x3#4) → (sel = .high → lo = 0x4#4 ∧ hi = 0x5#4) →
    replyAfter 0 s = .ok b0 → replyAfter 1 s = .ok b1 →
    ∃ s1 s2 t, exec (.setThresh sel value) s = .next s1 ∧ exec (.setThresh sel value) s1 = .next s2 ∧
      exec (.setThresh sel value) s2 = .next t ∧
      t = { takeReply (takeReply s) with
            seq := 2#2, busy := false, status := 0#3, result := 0#32, rspValid := true, inFlight := none,
            trace := [⟨.write2 (0x80#8 ||| lo.setWidth 8) (value.extractLsb' 0 8), .ok []⟩,
              ⟨.write2 (0x80#8 ||| hi.setWidth 8) (value.extractLsb' 8 8), .ok []⟩],
            select := hi,
            device := Memory.write (Memory.write s.device lo.toNat (value.extractLsb' 0 8)) hi.toNat (value.extractLsb' 8 8) }

/-- SET_PERSIST (R135): INTERRUPT keeps bits 5:4, takes `cycles` in bits 3:0, and has 0 in bits 7:6. That the device stores
the byte in all its bits is log entry 22 (DESIGN CHOICE). -/
def Obligations.SetPersistWritesInterrupt : Prop :=
  ∀ (s : State) (c : Half) (b0 b2 : List Byte) (cur : Byte), c.toNat ≤ 15 → s.trace = [] → s.seq = 0#2 →
    replyAfter 0 s = .ok b0 → replyAfter 1 s = .ok [cur] → replyAfter 2 s = .ok b2 →
    ∃ s1 s2 s3 t, exec (.setPersist c) s = .next s1 ∧ exec (.setPersist c) s1 = .next s2 ∧
      exec (.setPersist c) s2 = .next s3 ∧ exec (.setPersist c) s3 = .next t ∧ t.rspValid = true ∧ t.status = 0#3 ∧
      ∃ new, Memory.read t.device 6 = some new ∧
        t.trace = [⟨.write1 0x86#8, .ok []⟩, ⟨.read 1, .ok [cur]⟩, ⟨.write2 0x86#8 new, .ok []⟩] ∧
        new.extractLsb' 0 4 = c.extractLsb' 0 4 ∧ new.extractLsb' 4 2 = cur.extractLsb' 4 2 ∧ new.extractLsb' 6 2 = 0#2

/-- SET_INTMODE (R136, R196): INTERRUPT keeps bits 3:0, takes `mode` in bits 5:4, has 0 in bits 7:6; the byte is written
for mode 2 too, and only then does the response carry 3 in place of 0: no step before it responds or writes STATUS. That the
device stores the byte in all its bits is log entry 22 (DESIGN CHOICE). -/
def Obligations.SetIntModeWritesInterrupt : Prop :=
  ∀ (s : State) (m : Half) (b0 b2 : List Byte) (cur : Byte), m.toNat ≤ 3 → s.trace = [] → s.seq = 0#2 →
    replyAfter 0 s = .ok b0 → replyAfter 1 s = .ok [cur] → replyAfter 2 s = .ok b2 →
    ∃ s1 s2 s3 t, exec (.setIntMode m) s = .next s1 ∧ exec (.setIntMode m) s1 = .next s2 ∧
      exec (.setIntMode m) s2 = .next s3 ∧ exec (.setIntMode m) s3 = .next t ∧
      (∀ u ∈ [s1, s2, s3], u.rspValid = false ∧ u.status = s.status) ∧ t.rspValid = true ∧
      t.status = (if m = 2#16 then 3#3 else 0#3) ∧ t.result = 0#32 ∧
      ∃ new, Memory.read t.device 6 = some new ∧
        t.trace = [⟨.write1 0x86#8, .ok []⟩, ⟨.read 1, .ok [cur]⟩, ⟨.write2 0x86#8 new, .ok []⟩] ∧
        new.extractLsb' 0 4 = cur.extractLsb' 0 4 ∧ new.extractLsb' 4 2 = m.extractLsb' 0 2 ∧ new.extractLsb' 6 2 = 0#2

/-- CLEAR_INT (R137): one byte, 0xE0, and no other trace. What it does to the device is open (U14): that the state after it
has the device record and the recorded selection of before is the model's choice (log entries 5 and 6, DESIGN CHOICE). -/
def Obligations.ClearIntCompletes : Prop :=
  ∀ (s : State) (b0 : List Byte), s.trace = [] → s.seq = 0#2 → replyAfter 0 s = .ok b0 →
    ∃ s1 t, exec .clearInt s = .next s1 ∧ exec .clearInt s1 = .next t ∧
      t = { takeReply s with
            seq := 1#2, busy := false, status := 0#3, result := 0#32, rspValid := true, inFlight := none,
            trace := [⟨.write1 0xE0#8, .ok []⟩] }

/-- READ_CHIPID (R170): the upper nibble of the ID byte. That the selection recorded is then 0xA is log entry 6, and that a
read leaves the device record log entry 5 (DESIGN CHOICE both). -/
def Obligations.ReadChipIdCompletes : Prop :=
  ∀ (s : State) (b0 : List Byte) (b : Byte), s.trace = [] → s.seq = 0#2 → replyAfter 0 s = .ok b0 →
    replyAfter 1 s = .ok [b] →
    ∃ s1 s2 t, exec .readChipId s = .next s1 ∧ exec .readChipId s1 = .next s2 ∧ exec .readChipId s2 = .next t ∧
      t = { takeReply (takeReply s) with
            seq := 2#2, busy := false, status := 0#3, result := (b >>> 4).setWidth 32, rspValid := true, inFlight := none,
            trace := [⟨.write1 0x8A#8, .ok []⟩, ⟨.read 1, .ok [b]⟩], select := 0xA#4 }

/-- READ_CHANNELS (R171, R66): two little-endian channels, channel 1 in the upper half of RESULT. That the selection recorded
is then 0xC, after a read of four bytes too, is log entry 6, and that a read leaves the device record log entry 5 (DESIGN
CHOICE both). -/
def Obligations.ReadChannelsCompletes : Prop :=
  ∀ (s : State) (b0 : List Byte) (c0 c1 c2 c3 : Byte), s.trace = [] → s.seq = 0#2 → replyAfter 0 s = .ok b0 →
    replyAfter 1 s = .ok [c0, c1, c2, c3] →
    ∃ s1 s2 t, exec .readChannels s = .next s1 ∧ exec .readChannels s1 = .next s2 ∧ exec .readChannels s2 = .next t ∧
      t = { takeReply (takeReply s) with
            seq := 2#2, busy := false, status := 0#3, result := (c3 ++ c2) ++ (c1 ++ c0), rspValid := true, inFlight := none,
            trace := [⟨.write1 0x8C#8, .ok []⟩, ⟨.read 4, .ok [c0, c1, c2, c3]⟩], select := 0xC#4 }

/-- READ_TIMING (R172): the raw byte with GAIN, INTEG and MANUAL above it. That the selection recorded is then 1 is log entry
6, and that a read leaves the device record log entry 5 (DESIGN CHOICE both). -/
def Obligations.ReadTimingCompletes : Prop :=
  ∀ (s : State) (b0 : List Byte) (b : Byte), s.trace = [] → s.seq = 0#2 → replyAfter 0 s = .ok b0 →
    replyAfter 1 s = .ok [b] →
    ∃ s1 s2 t, exec .readTiming s = .next s1 ∧ exec .readTiming s1 = .next s2 ∧ exec .readTiming s2 = .next t ∧
      t = { takeReply (takeReply s) with
            seq := 2#2, busy := false, status := 0#3,
            result := b.setWidth 32 ||| ((b.extractLsb' 4 1).setWidth 32 <<< 8) ||| ((b.extractLsb' 0 2).setWidth 32 <<< 9) |||
              ((b.extractLsb' 3 1).setWidth 32 <<< 11),
            rspValid := true, inFlight := none,
            trace := [⟨.write1 0x81#8, .ok []⟩, ⟨.read 1, .ok [b]⟩], select := 0x1#4 }

/-! ### Partial runs and hazards -/

/-- R111: an RMW that fails has a trace of one, two or three transactions, up to and including the failing one, and reports
1 with no later transaction; one that succeeds has exactly three. A read fails by an Err, or by any count but 1 (R61, R192).
MIRROR holds the byte read from the read on; that before it, and at the response, it keeps what it had is the model's choice
(log entry 19, DESIGN CHOICE). -/
def Obligations.RmwTraceLengths : Prop :=
  ∀ (i : Instr) (addr : RegAddr) (pm nb : Byte) (s : State), rmwOf i = some (addr, pm, nb) → i.wellFormed = true →
    s.trace = [] → s.seq = 0#2 →
    (∀ c d e, replyAfter 0 s = .err c d e →
      ∃ s1 t, exec i s = .next s1 ∧ exec i s1 = .next t ∧ t.rspValid = true ∧ t.status = 1#3 ∧
        t.trace = [⟨.write1 (cmd addr), .err⟩] ∧ t.mirror = s.mirror) ∧
    (∀ b0, replyAfter 0 s = .ok b0 →
      (∃ c d e, replyAfter 1 s = .err c d e) ∨ (∃ bytes, replyAfter 1 s = .ok bytes ∧ bytes.length ≠ 1) →
      ∃ s1 s2 t, exec i s = .next s1 ∧ exec i s1 = .next s2 ∧ exec i s2 = .next t ∧ t.rspValid = true ∧ t.status = 1#3 ∧
        t.trace = [⟨.write1 (cmd addr), .ok []⟩, ⟨.read 1, .err⟩] ∧ t.mirror = s.mirror) ∧
    (∀ b0 cur c d e, replyAfter 0 s = .ok b0 → replyAfter 1 s = .ok [cur] → replyAfter 2 s = .err c d e →
      ∃ s1 s2 s3 t, exec i s = .next s1 ∧ exec i s1 = .next s2 ∧ exec i s2 = .next s3 ∧ exec i s3 = .next t ∧
        s2.mirror = cur ∧ t.rspValid = true ∧ t.status = 1#3 ∧
        t.trace = [⟨.write1 (cmd addr), .ok []⟩, ⟨.read 1, .ok [cur]⟩, ⟨.write2 (cmd addr) ((cur &&& pm) ||| nb), .err⟩]) ∧
    (∀ b0 cur b2, replyAfter 0 s = .ok b0 → replyAfter 1 s = .ok [cur] → replyAfter 2 s = .ok b2 →
      ∃ s1 s2 s3 t, exec i s = .next s1 ∧ exec i s1 = .next s2 ∧ exec i s2 = .next s3 ∧ exec i s3 = .next t ∧
        s2.mirror = cur ∧ t.rspValid = true ∧ (t.status = 0#3 ∨ t.status = 3#3) ∧
        t.trace = [⟨.write1 (cmd addr), .ok []⟩, ⟨.read 1, .ok [cur]⟩, ⟨.write2 (cmd addr) ((cur &&& pm) ||| nb), .ok []⟩])

/-- R198, R225: a SET_THRESH whose second write fails reports 1; the LSB is new, and the MSB is old or new as the transport
drew it. Nothing is undone or repaired. That the data byte has a draw of its own is log entry 11
(DEDUCED), and that the device stores the byte answered Ok log entry 22 (DESIGN CHOICE). -/
def Obligations.SetThreshHalfUpdated : Prop :=
  ∀ (s : State) (sel : ThreshPair) (value : Half) (b0 : List Byte) (c d : Bool) (e lo hi : RegAddr), s.trace = [] →
    s.seq = 0#2 → (sel = .low → lo = 0x2#4 ∧ hi = 0x3#4) → (sel = .high → lo = 0x4#4 ∧ hi = 0x5#4) →
    replyAfter 0 s = .ok b0 → replyAfter 1 s = .err c d e →
    ∃ s1 s2 t, exec (.setThresh sel value) s = .next s1 ∧ exec (.setThresh sel value) s1 = .next s2 ∧
      exec (.setThresh sel value) s2 = .next t ∧ t.rspValid = true ∧ t.status = 1#3 ∧ t.result = 0#32 ∧
      t.trace = [⟨.write2 (cmd lo) (lsb value), .ok []⟩, ⟨.write2 (cmd hi) (msb value), .err⟩] ∧
      Memory.read t.device lo.toNat = some (lsb value) ∧
      Memory.read t.device hi.toNat = (if d = true then some (msb value) else Memory.read s.device hi.toNat) ∧
      ∀ a, a ≠ lo.toNat → a ≠ hi.toNat → Memory.read t.device a = Memory.read s.device a

/-- R224: the write-back of an RMW is computed from MIRROR alone, whatever the register has come to hold since its read. That
the device stores it is log entry 22 (DESIGN CHOICE). -/
def Obligations.WriteBackUsesMirrorOnly : Prop :=
  ∀ (i : Instr) (addr : RegAddr) (pm nb : Byte) (s : State) (b : List Byte), rmwOf i = some (addr, pm, nb) →
    i.wellFormed = true → (∀ x ∈ s.trace, x.answer ≠ .err) → s.seq = 2#2 → nextReply s = .ok b →
    ∃ t, exec i s = .next t ∧
      t.trace = s.trace ++ [⟨.write2 (cmd addr) ((s.mirror &&& pm) ||| nb), .ok []⟩] ∧
      Memory.read t.device addr.toNat = some ((s.mirror &&& pm) ||| nb)

/-- R77: a failed write leaves the addressed register unchanged or changed to the byte written, and a failed one-byte write
leaves the selection unknown: where it was, or else at the register named, after a clear command at any register; which, the
block's side of the next state does not show. That the command byte and the data byte have draws of their own, so that a
failed two-byte write moves the selection by the first and stores by the second, and that a register-select byte leaves one
of two registers, is log entry 11 (DEDUCED); that a failed clear command leaves the device record, where U14 leaves it open,
is log entry 5 (DESIGN CHOICE). -/
def Obligations.FailedWriteIsADraw : Prop :=
  (∀ (i : Instr) (s : State) (a e : RegAddr) (v : Byte) (c d : Bool) (rs : List Reply), i.wellFormed = true →
    (∀ x ∈ s.trace, x.answer ≠ .err) → nextStore i s = some (a, v) → s.replies = .err c d e :: rs →
    ∃ t, exec i s = .next t ∧ t.trace = s.trace ++ [⟨.write2 (cmd a) v, .err⟩] ∧
      t.select = (if c = true then a else s.select) ∧
      t.device = if d = true then Memory.write s.device a.toNat v else s.device) ∧
  (∀ (i : Instr) (s t : State) (k : Byte) (c d : Bool) (e : RegAddr) (rs : List Reply), s.replies = .err c d e :: rs →
    exec i s = .next t → t.trace = s.trace ++ [⟨.write1 k, .err⟩] →
    t.device = s.device ∧
    t.select = if c = true then (if k = 0xE0#8 then e else selectedRegister k) else s.select) ∧
  (∀ (i : Instr) (s t : State) (c d c' d' : Bool) (e e' : RegAddr) (rs : List Reply), s.replies = .err c d e :: rs →
    exec i s = .next t → ∃ t', exec i { s with replies := .err c' d' e' :: rs } = .next t' ∧ blockSide t' = blockSide t)

/-- R228: while the transport is silent a transaction stays outstanding, and the block stays BUSY without a response, for as
many steps as the silence lasts. -/
def Obligations.SilentTransportKeepsBusy : Prop :=
  ∀ (s t : State) (n : Nat), s.busy = true → (∀ e ∈ s.host, e ≠ .reset) → step s = .next t → t.inFlight ≠ none →
    (∀ k, k < n → replyAfter k t = .silent) →
    ∃ u, core.run n t = .next u ∧ u.busy = true ∧ u.rspValid = false ∧ u.inFlight = t.inFlight ∧ u.trace = s.trace ∧
      u.seq = s.seq ∧ u.req = s.req ∧ u.status = s.status ∧ u.result = s.result

/-- R21, R25: SEQ is 0 at acceptance; during an operation it goes up by 1 exactly when a transaction completes with Ok, and
otherwise stays, so that it never falls, jumps or wraps. -/
def Obligations.SeqCountsOkTransactions : Prop :=
  (∀ (s t : State) (w : Word) (rest : List HostEvent), s.busy = false → s.host = .request w :: rest → step s = .next t →
    t.seq = 0#2) ∧
  (∀ s t : State, s.busy = true → noResetNow s → step s = .next t →
    ((∃ f b, t.trace = s.trace ++ [⟨f, .ok b⟩]) → t.seq.toNat = s.seq.toNat + 1) ∧
    ((∀ f b, t.trace ≠ s.trace ++ [⟨f, .ok b⟩]) → t.seq = s.seq))

/-- R26, R28, R29 and the frame of every meaning: REQ and the host are never touched; only an RMW writes MIRROR; a
transaction step leaves STATUS, RESULT and BUSY; a response step leaves everything else. That MIRROR keeps its byte where
the spec leaves it unspecified is log entry 19 (DESIGN CHOICE). -/
def Obligations.ExecFrame : Prop :=
  ∀ (i : Instr) (s t : State), exec i s = .next t →
    t.req = s.req ∧ t.host = s.host ∧ (rmwOf i = none → t.mirror = s.mirror) ∧
    (t.rspValid = false → t.status = s.status ∧ t.result = s.result ∧ t.busy = s.busy) ∧
    (t.rspValid = true →
      t = { s with status := t.status, result := t.result, busy := false, rspValid := true, inFlight := none })

/-- The device record: a step that stores nothing leaves every location; a step that stores leaves every location but the
one `nextStore` computes, and that one holds the byte sent or what it held (R77). Where a step reads or clears, what becomes
of the device is open (R75, U14), and that the record stays is the model's choice (log entry 5, DESIGN CHOICE); so is that
a write of CONTROL leaves the other registers (log entry 21). -/
def Obligations.DeviceFrame : Prop :=
  ∀ (i : Instr) (s t : State), exec i s = .next t →
    (nextStore i s = none → t.device = s.device) ∧
    (∀ a v, nextStore i s = some (a, v) →
      (∀ b, b ≠ a.toNat → Memory.read t.device b = Memory.read s.device b) ∧
      (Memory.read t.device a.toNat = some v ∨ Memory.read t.device a.toNat = Memory.read s.device a.toNat))

/-- R43, R90: a transaction an operation completes is one of the listed frames; only WRITE_REG writes above 0x06, and only
CLEAR_INT sends 0xE0. -/
def Obligations.OnlyListedFrames : Prop :=
  ∀ (i : Instr) (s t : State) (x : Transaction), exec i s = .next t → t.trace = s.trace ++ [x] →
    emittable x.frame = true ∧
    (∀ c v, x.frame = .write2 c v → (∀ addr value, i ≠ .writeReg addr value) → (selectedRegister c).toNat ≤ 6) ∧
    (x.frame = .write1 0xE0#8 ↔ i = .clearInt) ∧
    (∀ n, x.frame = .read n → n = 1 ∨ i = .readChannels ∧ n = 4 ∨ ∃ addr m, i = .readReg addr m ∧ n = m.toNat)

/-- R29: no step reads STATUS or RESULT, and the response overwrites both. -/
def Obligations.StatusIsNeverRead : Prop :=
  ∀ (s t : State) (st : BitVec 3) (r : Word), step s = .next t →
    ∃ u, step { s with status := st, result := r } = .next u ∧
      (u = t ∨ u = { t with status := st, result := r }) ∧ (t.rspValid = true → u = t)

/-- R231, R80: with a transport that answers, a request presented to an idle block is answered within five steps: one
acceptance, at most three transactions, one response. Between, the block is BUSY with it and gives no response, so the one
found is this request's. That the response is a step of its own, and so the count, is log entry 9 (DEDUCED); that RSP_VALID
falls at the acceptance is log entry 2 (DESIGN CHOICE). -/
def Obligations.AnswersWithinFiveSteps : Prop :=
  ∀ (s : State) (w : Word) (rest : List HostEvent), s.busy = false → s.host = .request w :: rest →
    (∀ e ∈ rest, e ≠ .reset) → (∀ k, k < 3 → replyAfter k s ≠ .silent) →
    ∃ k t, 1 ≤ k ∧ k ≤ 5 ∧ core.run k s = .next t ∧ t.rspValid = true ∧ t.busy = false ∧ t.req = w ∧
      ∀ j, 1 ≤ j → j < k → ∃ u, core.run j s = .next u ∧ u.busy = true ∧ u.rspValid = false ∧ u.req = w

/-- R16, R45, R46, R75: what the block does depends on nothing that stands behind the transport: two states that differ only
in the device record, the selection and the hidden flags of coming failures take steps that differ only in those. -/
def Obligations.BlockCannotSeeDevice : Prop :=
  ∀ s1 s2 t1 : State, blockSide s1 = blockSide s2 → step s1 = .next t1 →
    ∃ t2, step s2 = .next t2 ∧ blockSide t1 = blockSide t2

/-- R110, R11, R46: the machine refines the spec's pseudocode. From every idle state, whatever earlier operations left in it,
a request runs in single steps to the response, the trace and the leftover replies that `Execute(w)` gives. The count of the
steps is R80 and R231, with one more for each silent reply (log entry 16, DEDUCED) and one for the response (log entry 9,
DEDUCED). -/
def Obligations.MachineRefinesPseudocode : Prop :=
  ∀ (s : State) (w : Word) (replies more : List Reply) (c : Completed), s.busy = false → s.host = [.request w] →
    s.replies = replies ++ more → execute w replies = some c →
    ∃ t, core.run (replies.length - c.replies.length + 2) s = .next t ∧ t.rspValid = true ∧ t.busy = false ∧
      rspStatus t = statusBits c.code ∧ rspResult t = c.result ∧ t.trace = c.trace ∧ t.replies = c.replies ++ more

/-- The recorded selection (R46), step by step: the registers that register-select bytes name. A step without a completed
transaction leaves it. The model's choices: that a read and a clear command that succeeds leave it (log entry 6, DESIGN
CHOICE), that a failed read leaves it, and that after a failed register select or two-byte write it is the old one or the
one named (log entry 11, DEDUCED); after a failed clear command it is any (R77, FailedWriteIsADraw). -/
def Obligations.SelectionFrame : Prop :=
  ∀ (i : Instr) (s t : State), exec i s = .next t →
    (t.trace = s.trace → t.select = s.select) ∧
    (∀ n ans, t.trace = s.trace ++ [⟨.read n, ans⟩] → t.select = s.select) ∧
    (∀ a bytes, t.trace = s.trace ++ [⟨.write1 (cmd a), .ok bytes⟩] → t.select = a) ∧
    (∀ a, t.trace = s.trace ++ [⟨.write1 (cmd a), .err⟩] → t.select = a ∨ t.select = s.select) ∧
    (∀ bytes, t.trace = s.trace ++ [⟨.write1 0xE0#8, .ok bytes⟩] → t.select = s.select) ∧
    (∀ a v bytes, t.trace = s.trace ++ [⟨.write2 (cmd a) v, .ok bytes⟩] → t.select = a) ∧
    (∀ a v, t.trace = s.trace ++ [⟨.write2 (cmd a) v, .err⟩] → t.select = a ∨ t.select = s.select)
end

