-- ==== Sys2Proof/Laws/Decode.lean ====
section
/-! SUPPORT. The request word: its fields read back, its row's pattern met, and that a word is its six fields. -/

namespace Sys2Proof

section
variable (op : BitVec 4) (addr : RegAddr) (n : BitVec 4) (rsv : BitVec 3) (sel : BitVec 1) (arg : Half)

/-- Every bit of a request word, by the field it lies in (R80). -/
theorem requestWord_getLsbD (i : Nat) : (requestWord op addr n rsv sel arg).getLsbD i =
    if i < 16 then arg.getLsbD i else if i < 17 then sel.getLsbD (i - 16) else if i < 20 then rsv.getLsbD (i - 17)
    else if i < 24 then n.getLsbD (i - 20) else if i < 28 then addr.getLsbD (i - 24) else op.getLsbD (i - 28) := by
  change (op ++ addr ++ n ++ rsv ++ sel ++ arg : BitVec (4 + 4 + 4 + 3 + 1 + 16)).getLsbD i = _
  simp only [BitVec.getLsbD_append, Nat.sub_sub]
  split_ifs <;> first | rfl | omega

@[simp] theorem opField_requestWord : opField (requestWord op addr n rsv sel arg) = op := by
  ext i hi
  rw [opField, BitVec.getElem_extractLsb', requestWord_getLsbD]
  split_ifs <;> first | omega | simp [BitVec.getLsbD_eq_getElem hi]

@[simp] theorem addrField_requestWord : addrField (requestWord op addr n rsv sel arg) = addr := by
  ext i hi
  rw [addrField, BitVec.getElem_extractLsb', requestWord_getLsbD]
  split_ifs <;> first | omega | simp [BitVec.getLsbD_eq_getElem hi]

@[simp] theorem nField_requestWord : nField (requestWord op addr n rsv sel arg) = n := by
  ext i hi
  rw [nField, BitVec.getElem_extractLsb', requestWord_getLsbD]
  split_ifs <;> first | omega | simp [BitVec.getLsbD_eq_getElem hi]

@[simp] theorem rsvField_requestWord : rsvField (requestWord op addr n rsv sel arg) = rsv := by
  ext i hi
  rw [rsvField, BitVec.getElem_extractLsb', requestWord_getLsbD]
  split_ifs <;> first | omega | simp [BitVec.getLsbD_eq_getElem hi]

@[simp] theorem selField_requestWord : selField (requestWord op addr n rsv sel arg) = sel := by
  ext i hi
  rw [selField, BitVec.getElem_extractLsb', requestWord_getLsbD]
  split_ifs <;> first | omega | simp [BitVec.getLsbD_eq_getElem hi]

@[simp] theorem argField_requestWord : argField (requestWord op addr n rsv sel arg) = arg := by
  ext i hi
  rw [argField, BitVec.getElem_extractLsb', requestWord_getLsbD]
  split_ifs <;> first | omega | simp [BitVec.getLsbD_eq_getElem hi]

/-- A word is its six fields (R80). -/
theorem requestWord_fields (w : Word) :
    requestWord (opField w) (addrField w) (nField w) (rsvField w) (selField w) (argField w) = w := by
  apply BitVec.eq_of_getLsbD_eq
  intro i hi
  rw [requestWord_getLsbD]
  simp only [opField, addrField, nField, rsvField, selField, argField, BitVec.getLsbD_extractLsb']
  interval_cases i <;> simp

/-- A mask made of whole fields acts field by field. -/
theorem requestWord_and (op' : BitVec 4) (addr' : RegAddr) (n' : BitVec 4) (rsv' : BitVec 3) (sel' : BitVec 1) (arg' : Half) :
    requestWord op addr n rsv sel arg &&& requestWord op' addr' n' rsv' sel' arg' =
      requestWord (op &&& op') (addr &&& addr') (n &&& n') (rsv &&& rsv') (sel &&& sel') (arg &&& arg') := by
  apply BitVec.eq_of_getLsbD_eq
  intro i hi
  simp only [BitVec.getLsbD_and, requestWord_getLsbD]
  split_ifs <;> rfl

/-- Two request words are equal exactly where their fields are. -/
theorem requestWord_inj (op' : BitVec 4) (addr' : RegAddr) (n' : BitVec 4) (rsv' : BitVec 3) (sel' : BitVec 1) (arg' : Half) :
    requestWord op addr n rsv sel arg = requestWord op' addr' n' rsv' sel' arg' ↔
      op = op' ∧ addr = addr' ∧ n = n' ∧ rsv = rsv' ∧ sel = sel' ∧ arg = arg' := by
  constructor
  · intro h
    refine ⟨?_, ?_, ?_, ?_, ?_, ?_⟩
    · simpa using congrArg opField h
    · simpa using congrArg addrField h
    · simpa using congrArg nField h
    · simpa using congrArg rsvField h
    · simpa using congrArg selField h
    · simpa using congrArg argField h
  · rintro ⟨rfl, rfl, rfl, rfl, rfl, rfl⟩; rfl

end

@[simp] theorem threshPairOf_selOf (p : ThreshPair) : threshPairOf (selOf p) = p := by cases p <;> rfl

@[simp] theorem selOf_threshPairOf (b : BitVec 1) : selOf (threshPairOf b) = b := by revert b; decide

/-- The masks of the opcode map, field by field (section 4). -/
def maskFields : Opcode → BitVec 4 × BitVec 4 × BitVec 3 × BitVec 1 × Half
  | .readReg => (0#4, 0#4, 7#3, 1#1, 0xFFFF#16)
  | .writeReg => (0#4, 0xF#4, 7#3, 1#1, 0#16)
  | .setThresh => (0xF#4, 0xF#4, 7#3, 0#1, 0#16)
  | .setPower | .setGain | .setInteg | .setManual | .setPersist | .setIntMode => (0xF#4, 0xF#4, 7#3, 1#1, 0#16)
  | .clearInt | .readChipId | .readChannels | .readTiming => (0xF#4, 0xF#4, 7#3, 1#1, 0xFFFF#16)

theorem maskWord_fields (o : Opcode) :
    maskWord o = requestWord 0xF#4 (maskFields o).1 (maskFields o).2.1 (maskFields o).2.2.1 (maskFields o).2.2.2.1
      (maskFields o).2.2.2.2 := by
  cases o <;> decide

/-- The OP value of a row (R81). -/
def opOf : Opcode → BitVec 4
  | .readReg => 0x1#4 | .writeReg => 0x2#4 | .setPower => 0x3#4 | .setGain => 0x4#4 | .setInteg => 0x5#4
  | .setManual => 0x6#4 | .setThresh => 0x7#4 | .setPersist => 0x8#4 | .setIntMode => 0x9#4 | .clearInt => 0xA#4
  | .readChipId => 0xB#4 | .readChannels => 0xC#4 | .readTiming => 0xD#4

theorem matchWord_fields (o : Opcode) : matchWord o = requestWord (opOf o) 0#4 0#4 0#3 0#1 0#16 := by
  cases o <;> decide

@[simp] theorem opcodeOf_opOf (o : Opcode) : opcodeOf (opOf o) = some o := by cases o <;> rfl

theorem opcodeOf_eq_some (op : BitVec 4) (o : Opcode) : opcodeOf op = some o ↔ op = opOf o := by
  constructor
  · revert op o; intro op; revert op; decide +revert
  · rintro rfl; simp

/-! A whole field under a mask of ones is itself. -/

theorem and_ones4 (x : BitVec 4) : x &&& 0xF#4 = x := by revert x; decide

theorem and_ones3 (x : BitVec 3) : x &&& 7#3 = x := by revert x; decide

theorem and_ones1 (x : BitVec 1) : x &&& 1#1 = x := by revert x; decide

theorem and_ones16 (x : BitVec 16) : x &&& 0xFFFF#16 = x := BitVec.and_allOnes

end Sys2Proof
end

