-- ==== Sys2Proof/Laws/Memory.lean ====
section
/-! SUPPORT. The device record: a read after a write, what a write leaves alone, and that every operation over it keeps the
canonical form. -/

namespace Sys2Proof.Machine

@[simp] theorem Memory.read_write_same (m : List Host.Cell) (a : Nat) (v : Byte) :
    Memory.read (Memory.write m a v) a = some v := by
  induction m with
  | nil => simp [Memory.write, Memory.read]
  | cons c m ih =>
    obtain ⟨b, u⟩ := c
    simp only [Memory.write]
    split
    · simp [Memory.read]
    · split
      · simp [Memory.read]
      · next h => simp [Memory.read, h, ih]

theorem Memory.read_write_other (m : List Host.Cell) (a b : Nat) (v : Byte) (h : b ≠ a) :
    Memory.read (Memory.write m a v) b = Memory.read m b := by
  induction m with
  | nil => simp [Memory.write, Memory.read, h]
  | cons c m ih =>
    obtain ⟨d, u⟩ := c
    simp only [Memory.write]
    split
    · simp [Memory.read, h]
    · split
      · next hd => subst hd; simp [Memory.read, h]
      · simp [Memory.read, ih]

theorem Memory.risesFrom_write (m : List Host.Cell) (lo : Option Nat) (a : Nat) (v : Byte)
    (hm : Memory.risesFrom lo m = true) (hlo : ∀ l, lo = some l → l < a) :
    Memory.risesFrom lo (Memory.write m a v) = true := by
  induction m generalizing lo with
  | nil => cases lo <;> simp_all [Memory.write, Memory.risesFrom]
  | cons c m ih =>
    obtain ⟨b, u⟩ := c
    have hb : Memory.risesFrom (some b) m = true ∧ ∀ l, lo = some l → l < b := by
      cases lo <;> simp_all [Memory.risesFrom]
    simp only [Memory.write]
    split
    · cases lo <;> simp_all [Memory.risesFrom]
    · split
      · next hab => subst hab; cases lo <;> simp_all [Memory.risesFrom]
      · have := ih (some b) hb.1 (by intro l hl; simp at hl; omega)
        cases lo <;> simp_all [Memory.risesFrom]

theorem Memory.mem_write (m : List Host.Cell) (a : Nat) (v : Byte) (c : Host.Cell) (h : c ∈ Memory.write m a v) :
    c = (a, v) ∨ c ∈ m := by
  induction m with
  | nil => simpa [Memory.write] using h
  | cons d m ih =>
    obtain ⟨b, u⟩ := d
    simp only [Memory.write] at h
    split at h
    · simpa using h
    · split at h
      · rcases List.mem_cons.mp h with h | h <;> simp [h]
      · rcases List.mem_cons.mp h with h | h
        · simp [h]
        · rcases ih h with h | h <;> simp [h]

theorem Memory.all_lt_write (m : List Host.Cell) (a : Nat) (v : Byte) (hm : ∀ c ∈ m, c.1 < 16) (ha : a < 16) :
    ∀ c ∈ Memory.write m a v, c.1 < 16 := by
  intro c hc
  rcases Memory.mem_write m a v c hc with rfl | h
  · exact ha
  · exact hm c h

/-- A write inside the sixteen locations keeps the canonical form. -/
theorem Memory.wf_write (m : List Host.Cell) (a : Nat) (v : Byte) (hm : Memory.wf m = true) (ha : a < 16) :
    Memory.wf (Memory.write m a v) = true := by
  simp only [Memory.wf, Bool.and_eq_true, List.all_eq_true, decide_eq_true_eq] at hm ⊢
  exact ⟨Memory.risesFrom_write m none a v hm.1 (by simp), Memory.all_lt_write m a v hm.2 ha⟩

/-- The empty record, State.reset's, is canonical. -/
theorem Memory.wf_nil : Memory.wf [] = true := rfl

/-- What a frame leaves at the device is canonical if what was there is. -/
theorem deviceTakes_wf (f : Frame) (r : Reply) (s : State) (h : Memory.wf s.device = true) :
    Memory.wf (deviceTakes f r s).device = true := by
  unfold deviceTakes
  split
  · exact h
  · simp only
    split
    · exact Memory.wf_write _ _ _ h (selectedRegister _).isLt
    · exact h
  · exact h

end Sys2Proof.Machine
end

