-- ==== Sys2Proof/Laws/State.lean ====
section
/-! SUPPORT. One lemma per field per update of the state: what each named operation leaves in each field, so that no later
proof unfolds a record update. -/

namespace Sys2Proof.Machine

/-! ### takeReply -/

@[simp] theorem takeReply_req (s : State) :
    (takeReply s).req = s.req := by unfold takeReply; split <;> rfl

@[simp] theorem takeReply_busy (s : State) :
    (takeReply s).busy = s.busy := by unfold takeReply; split <;> rfl

@[simp] theorem takeReply_seq (s : State) :
    (takeReply s).seq = s.seq := by unfold takeReply; split <;> rfl

@[simp] theorem takeReply_mirror (s : State) :
    (takeReply s).mirror = s.mirror := by unfold takeReply; split <;> rfl

@[simp] theorem takeReply_status (s : State) :
    (takeReply s).status = s.status := by unfold takeReply; split <;> rfl

@[simp] theorem takeReply_result (s : State) :
    (takeReply s).result = s.result := by unfold takeReply; split <;> rfl

@[simp] theorem takeReply_rspValid (s : State) :
    (takeReply s).rspValid = s.rspValid := by unfold takeReply; split <;> rfl

@[simp] theorem takeReply_inFlight (s : State) :
    (takeReply s).inFlight = s.inFlight := by unfold takeReply; split <;> rfl

@[simp] theorem takeReply_trace (s : State) :
    (takeReply s).trace = s.trace := by unfold takeReply; split <;> rfl

@[simp] theorem takeReply_host (s : State) :
    (takeReply s).host = s.host := by unfold takeReply; split <;> rfl

@[simp] theorem takeReply_device (s : State) :
    (takeReply s).device = s.device := by unfold takeReply; split <;> rfl

@[simp] theorem takeReply_select (s : State) :
    (takeReply s).select = s.select := by unfold takeReply; split <;> rfl

/-! ### deviceTakes -/

@[simp] theorem deviceTakes_req (f : Frame) (r : Reply) (s : State) :
    (deviceTakes f r s).req = s.req := by
  unfold deviceTakes; split <;> (try split) <;> rfl

@[simp] theorem deviceTakes_busy (f : Frame) (r : Reply) (s : State) :
    (deviceTakes f r s).busy = s.busy := by
  unfold deviceTakes; split <;> (try split) <;> rfl

@[simp] theorem deviceTakes_seq (f : Frame) (r : Reply) (s : State) :
    (deviceTakes f r s).seq = s.seq := by
  unfold deviceTakes; split <;> (try split) <;> rfl

@[simp] theorem deviceTakes_mirror (f : Frame) (r : Reply) (s : State) :
    (deviceTakes f r s).mirror = s.mirror := by
  unfold deviceTakes; split <;> (try split) <;> rfl

@[simp] theorem deviceTakes_status (f : Frame) (r : Reply) (s : State) :
    (deviceTakes f r s).status = s.status := by
  unfold deviceTakes; split <;> (try split) <;> rfl

@[simp] theorem deviceTakes_result (f : Frame) (r : Reply) (s : State) :
    (deviceTakes f r s).result = s.result := by
  unfold deviceTakes; split <;> (try split) <;> rfl

@[simp] theorem deviceTakes_rspValid (f : Frame) (r : Reply) (s : State) :
    (deviceTakes f r s).rspValid = s.rspValid := by
  unfold deviceTakes; split <;> (try split) <;> rfl

@[simp] theorem deviceTakes_inFlight (f : Frame) (r : Reply) (s : State) :
    (deviceTakes f r s).inFlight = s.inFlight := by
  unfold deviceTakes; split <;> (try split) <;> rfl

@[simp] theorem deviceTakes_trace (f : Frame) (r : Reply) (s : State) :
    (deviceTakes f r s).trace = s.trace := by
  unfold deviceTakes; split <;> (try split) <;> rfl

@[simp] theorem deviceTakes_host (f : Frame) (r : Reply) (s : State) :
    (deviceTakes f r s).host = s.host := by
  unfold deviceTakes; split <;> (try split) <;> rfl

@[simp] theorem deviceTakes_replies (f : Frame) (r : Reply) (s : State) :
    (deviceTakes f r s).replies = s.replies := by
  unfold deviceTakes; split <;> (try split) <;> rfl

@[simp] theorem deviceTakes_draws (f : Frame) (r : Reply) (s : State) :
    (deviceTakes f r s).draws = s.draws := by
  unfold deviceTakes; split <;> (try split) <;> rfl

/-! ### respond and abort -/

@[simp] theorem respond_req (code : Code) (r : Word) (s : State) :
    (respond code r s).req = s.req := rfl

@[simp] theorem respond_busy (code : Code) (r : Word) (s : State) :
    (respond code r s).busy = false := rfl

@[simp] theorem respond_seq (code : Code) (r : Word) (s : State) :
    (respond code r s).seq = s.seq := rfl

@[simp] theorem respond_mirror (code : Code) (r : Word) (s : State) :
    (respond code r s).mirror = s.mirror := rfl

@[simp] theorem respond_status (code : Code) (r : Word) (s : State) :
    (respond code r s).status = statusBits code := rfl

@[simp] theorem respond_result (code : Code) (r : Word) (s : State) :
    (respond code r s).result = r := rfl

@[simp] theorem respond_rspValid (code : Code) (r : Word) (s : State) :
    (respond code r s).rspValid = true := rfl

@[simp] theorem respond_inFlight (code : Code) (r : Word) (s : State) :
    (respond code r s).inFlight = none := rfl

@[simp] theorem respond_trace (code : Code) (r : Word) (s : State) :
    (respond code r s).trace = s.trace := rfl

@[simp] theorem respond_host (code : Code) (r : Word) (s : State) :
    (respond code r s).host = s.host := rfl

@[simp] theorem respond_replies (code : Code) (r : Word) (s : State) :
    (respond code r s).replies = s.replies := rfl

@[simp] theorem respond_draws (code : Code) (r : Word) (s : State) :
    (respond code r s).draws = s.draws := rfl

@[simp] theorem respond_device (code : Code) (r : Word) (s : State) :
    (respond code r s).device = s.device := rfl

@[simp] theorem respond_select (code : Code) (r : Word) (s : State) :
    (respond code r s).select = s.select := rfl

@[simp] theorem abort_req (code : Code) (s : State) :
    (abort code s).req = s.req := rfl

@[simp] theorem abort_busy (code : Code) (s : State) :
    (abort code s).busy = false := rfl

@[simp] theorem abort_seq (code : Code) (s : State) :
    (abort code s).seq = s.seq := rfl

@[simp] theorem abort_mirror (code : Code) (s : State) :
    (abort code s).mirror = s.mirror := rfl

@[simp] theorem abort_status (code : Code) (s : State) :
    (abort code s).status = statusBits code := rfl

@[simp] theorem abort_result (code : Code) (s : State) :
    (abort code s).result = 0#32 := rfl

@[simp] theorem abort_rspValid (code : Code) (s : State) :
    (abort code s).rspValid = true := rfl

@[simp] theorem abort_inFlight (code : Code) (s : State) :
    (abort code s).inFlight = none := rfl

@[simp] theorem abort_trace (code : Code) (s : State) :
    (abort code s).trace = s.trace := rfl

@[simp] theorem abort_host (code : Code) (s : State) :
    (abort code s).host = s.host := rfl

@[simp] theorem abort_replies (code : Code) (s : State) :
    (abort code s).replies = s.replies := rfl

@[simp] theorem abort_draws (code : Code) (s : State) :
    (abort code s).draws = s.draws := rfl

@[simp] theorem abort_device (code : Code) (s : State) :
    (abort code s).device = s.device := rfl

@[simp] theorem abort_select (code : Code) (s : State) :
    (abort code s).select = s.select := rfl

/-! ### accept -/

@[simp] theorem accept_req (w : Word) (s : State) :
    (accept w s).req = w := rfl

@[simp] theorem accept_busy (w : Word) (s : State) :
    (accept w s).busy = true := rfl

@[simp] theorem accept_seq (w : Word) (s : State) :
    (accept w s).seq = 0#2 := rfl

@[simp] theorem accept_mirror (w : Word) (s : State) :
    (accept w s).mirror = s.mirror := rfl

@[simp] theorem accept_status (w : Word) (s : State) :
    (accept w s).status = s.status := rfl

@[simp] theorem accept_result (w : Word) (s : State) :
    (accept w s).result = s.result := rfl

@[simp] theorem accept_rspValid (w : Word) (s : State) :
    (accept w s).rspValid = false := rfl

@[simp] theorem accept_inFlight (w : Word) (s : State) :
    (accept w s).inFlight = none := rfl

@[simp] theorem accept_trace (w : Word) (s : State) :
    (accept w s).trace = [] := rfl

@[simp] theorem accept_host (w : Word) (s : State) :
    (accept w s).host = s.host := rfl

@[simp] theorem accept_replies (w : Word) (s : State) :
    (accept w s).replies = s.replies := rfl

@[simp] theorem accept_draws (w : Word) (s : State) :
    (accept w s).draws = s.draws := rfl

@[simp] theorem accept_device (w : Word) (s : State) :
    (accept w s).device = s.device := rfl

@[simp] theorem accept_select (w : Word) (s : State) :
    (accept w s).select = s.select := rfl

/-! ### hostWaits -/

@[simp] theorem hostWaits_req (s : State) :
    (hostWaits s).req = s.req := by unfold hostWaits; split <;> rfl

@[simp] theorem hostWaits_busy (s : State) :
    (hostWaits s).busy = s.busy := by unfold hostWaits; split <;> rfl

@[simp] theorem hostWaits_seq (s : State) :
    (hostWaits s).seq = s.seq := by unfold hostWaits; split <;> rfl

@[simp] theorem hostWaits_mirror (s : State) :
    (hostWaits s).mirror = s.mirror := by unfold hostWaits; split <;> rfl

@[simp] theorem hostWaits_status (s : State) :
    (hostWaits s).status = s.status := by unfold hostWaits; split <;> rfl

@[simp] theorem hostWaits_result (s : State) :
    (hostWaits s).result = s.result := by unfold hostWaits; split <;> rfl

@[simp] theorem hostWaits_rspValid (s : State) :
    (hostWaits s).rspValid = s.rspValid := by unfold hostWaits; split <;> rfl

@[simp] theorem hostWaits_inFlight (s : State) :
    (hostWaits s).inFlight = s.inFlight := by unfold hostWaits; split <;> rfl

@[simp] theorem hostWaits_trace (s : State) :
    (hostWaits s).trace = s.trace := by unfold hostWaits; split <;> rfl

@[simp] theorem hostWaits_replies (s : State) :
    (hostWaits s).replies = s.replies := by unfold hostWaits; split <;> rfl

@[simp] theorem hostWaits_draws (s : State) :
    (hostWaits s).draws = s.draws := by unfold hostWaits; split <;> rfl

@[simp] theorem hostWaits_device (s : State) :
    (hostWaits s).device = s.device := by unfold hostWaits; split <;> rfl

@[simp] theorem hostWaits_select (s : State) :
    (hostWaits s).select = s.select := by unfold hostWaits; split <;> rfl

/-! ### transact: the fields no transaction changes -/

@[simp] theorem transact_req (a : Action) (s : State) :
    (transact a s).req = s.req := by
  unfold transact; split <;> simp

@[simp] theorem transact_busy (a : Action) (s : State) :
    (transact a s).busy = s.busy := by
  unfold transact; split <;> simp

@[simp] theorem transact_status (a : Action) (s : State) :
    (transact a s).status = s.status := by
  unfold transact; split <;> simp

@[simp] theorem transact_result (a : Action) (s : State) :
    (transact a s).result = s.result := by
  unfold transact; split <;> simp

@[simp] theorem transact_host (a : Action) (s : State) :
    (transact a s).host = s.host := by
  unfold transact; split <;> simp

@[simp] theorem transact_rspValid (a : Action) (s : State) :
    (transact a s).rspValid = false := by
  unfold transact; split <;> simp

@[simp] theorem transact_replies (a : Action) (s : State) :
    (transact a s).replies = (takeReply s).replies := by
  unfold transact; split <;> simp

@[simp] theorem transact_draws (a : Action) (s : State) :
    (transact a s).draws = (takeReply s).draws := by
  unfold transact; split <;> simp

/-! ### blockReset -/

@[simp] theorem blockReset_req (s : State) :
    (blockReset s).req = 0#32 := rfl

@[simp] theorem blockReset_busy (s : State) :
    (blockReset s).busy = false := rfl

@[simp] theorem blockReset_seq (s : State) :
    (blockReset s).seq = 0#2 := rfl

@[simp] theorem blockReset_mirror (s : State) :
    (blockReset s).mirror = 0#8 := rfl

@[simp] theorem blockReset_status (s : State) :
    (blockReset s).status = 0#3 := rfl

@[simp] theorem blockReset_result (s : State) :
    (blockReset s).result = 0#32 := rfl

@[simp] theorem blockReset_rspValid (s : State) :
    (blockReset s).rspValid = false := rfl

@[simp] theorem blockReset_inFlight (s : State) :
    (blockReset s).inFlight = none := rfl

@[simp] theorem blockReset_trace (s : State) :
    (blockReset s).trace = [] := rfl

@[simp] theorem blockReset_host (s : State) :
    (blockReset s).host = s.host := by
  simp only [blockReset, abandonInFlight]; split <;> simp

end Sys2Proof.Machine
end

