-- ==== Sys2Proof/Laws/Ops.lean ====
section
/-! SUPPORT. What each shared operation can do, said once: the answers of a transaction, the four ends of `operate`, and
`exec` as one `operate` of the operation's script. -/

namespace Sys2Proof.Machine

/-! ### The next reply -/

/-- The next reply depends on the listed replies and the counter alone. -/
theorem nextReply_congr {s t : State} (hr : s.replies = t.replies) (hd : s.draws = t.draws) : nextReply s = nextReply t := by
  unfold nextReply; rw [hr, hd]

@[simp] theorem nextReply_transact (a : Action) (s : State) : nextReply (transact a s) = nextReply (takeReply s) :=
  nextReply_congr (by simp) (by simp)

@[simp] theorem nextReply_accept (w : Word) (s : State) : nextReply (accept w s) = nextReply s :=
  nextReply_congr rfl rfl

@[simp] theorem nextReply_hostWaits (s : State) : nextReply (hostWaits s) = nextReply s :=
  nextReply_congr (by simp) (by simp)

theorem nextReply_cons {s : State} {r : Reply} {rs : List Reply} (h : s.replies = r :: rs) : nextReply s = r := by
  unfold nextReply; rw [h]

theorem takeReply_cons {s : State} {r : Reply} {rs : List Reply} (h : s.replies = r :: rs) :
    takeReply s = { s with replies := rs } := by
  unfold takeReply; rw [h]

/-! ### One transaction -/

/-- A silent transport leaves the transaction outstanding and everything else alone. -/
theorem transact_silent {a : Action} {s : State} (h : judge a.frame (nextReply s) = none) :
    transact a s = { takeReply s with inFlight := some a.frame, rspValid := false } := by
  unfold transact; rw [h]

/-- An Err answer joins the trace; SEQ and MIRROR stay. -/
theorem transact_err {a : Action} {s : State} (h : judge a.frame (nextReply s) = some .err) :
    transact a s = deviceTakes a.frame (nextReply s)
      { takeReply s with inFlight := none, rspValid := false, trace := s.trace ++ [⟨a.frame, .err⟩] } := by
  unfold transact; rw [h]

/-- An Ok answer joins the trace, and SEQ goes up by 1. -/
theorem transact_ok {a : Action} {s : State} {bytes : List Byte} (h : judge a.frame (nextReply s) = some (.ok bytes)) :
    transact a s = deviceTakes a.frame (nextReply s)
      { takeReply s with
        inFlight := none
        rspValid := false
        trace    := s.trace ++ [⟨a.frame, .ok bytes⟩]
        seq      := s.seq + 1#2
        mirror   := mirrorAfter a bytes s.mirror } := by
  unfold transact; rw [h]

/-- The three ways a transaction step can go, in the fields it may change. -/
theorem transact_cases (a : Action) (s : State) :
    (judge a.frame (nextReply s) = none ∧ (transact a s).inFlight = some a.frame ∧ (transact a s).trace = s.trace ∧
      (transact a s).seq = s.seq ∧ (transact a s).mirror = s.mirror ∧ (transact a s).device = s.device ∧
      (transact a s).select = s.select) ∨
    (judge a.frame (nextReply s) = some .err ∧ (transact a s).inFlight = none ∧
      (transact a s).trace = s.trace ++ [⟨a.frame, .err⟩] ∧ (transact a s).seq = s.seq ∧
      (transact a s).mirror = s.mirror) ∨
    (∃ bytes, judge a.frame (nextReply s) = some (.ok bytes) ∧ (transact a s).inFlight = none ∧
      (transact a s).trace = s.trace ++ [⟨a.frame, .ok bytes⟩] ∧ (transact a s).seq = s.seq + 1#2 ∧
      (transact a s).mirror = mirrorAfter a bytes s.mirror) := by
  rcases h : judge a.frame (nextReply s) with _ | (bytes | _)
  · left; rw [transact_silent h]; simp
  · right; right; refine ⟨bytes, rfl, ?_⟩; rw [transact_ok h]; simp
  · right; left; refine ⟨rfl, ?_⟩; rw [transact_err h]; simp

/-- An Ok read carries the count it asked for (R61). -/
theorem judge_read_length {n : Nat} {r : Reply} {bytes : List Byte} (h : judge (.read n) r = some (.ok bytes)) :
    bytes.length = n := by
  cases r with
  | silent => simp [judge] at h
  | err c d => simp [judge] at h
  | ok bs =>
    by_cases hl : bs.length = n
    · simp [judge, hl] at h; subst h; exact hl
    · simp [judge, hl] at h

/-- The device record stays canonical over a transaction. -/
theorem transact_wf (a : Action) (s : State) (h : Memory.wf s.device = true) : Memory.wf (transact a s).device = true := by
  rcases hj : judge a.frame (nextReply s) with _ | (bytes | _)
  · rw [transact_silent hj]; simpa using h
  · rw [transact_ok hj]; exact deviceTakes_wf _ _ _ (by simpa using h)
  · rw [transact_err hj]; exact deviceTakes_wf _ _ _ (by simpa using h)

/-! ### The last transaction -/

theorem failed_iff (s : State) : failed s = true ↔ ∃ pre f, s.trace = pre ++ [⟨f, .err⟩] := by
  unfold failed
  constructor
  · intro h
    split at h
    · next f hf =>
      obtain ⟨pre, hp⟩ := List.getLast?_eq_some_iff.mp hf
      exact ⟨pre, f, hp⟩
    · exact absurd h (by simp)
  · rintro ⟨pre, f, h⟩
    simp [h]

theorem answerBytes_of_trace {s : State} {pre : List Transaction} {n : Nat} {bytes : List Byte}
    (h : s.trace = pre ++ [⟨.read n, .ok bytes⟩]) : answerBytes s = bytes := by
  simp [answerBytes, h]

/-! ### The frame of an operation -/

/-- What `operate` can answer, said once (R110, R197). -/
theorem operate_cases {legal : Bool} {script : List Action} {code : Code} {r : Word} {s t : State}
    (h : operate legal script code r s = .next t) :
    (legal = false ∧ t = abort .invalidArgument s) ∨
    (legal = true ∧ failed s = true ∧ t = abort .transportError s) ∨
    (legal = true ∧ failed s = false ∧ ∃ a, script[s.seq.toNat]? = some a ∧ t = transact a s) ∨
    (legal = true ∧ failed s = false ∧ script[s.seq.toNat]? = none ∧ t = respond code r s) := by
  unfold operate at h
  split at h
  · next hl => exact .inl ⟨hl, by cases h; rfl⟩
  · next hl =>
    have hl : legal = true := by simpa using hl
    split at h
    · next hf => exact .inr (.inl ⟨hl, hf, by cases h; rfl⟩)
    · next hf =>
      have hf : failed s = false := by simpa using hf
      split at h
      · next a ha => exact .inr (.inr (.inl ⟨hl, hf, a, ha, by cases h; rfl⟩))
      · next ha => exact .inr (.inr (.inr ⟨hl, hf, ha, by cases h; rfl⟩))

/-- `operate` always answers a next state. -/
theorem operate_next (legal : Bool) (script : List Action) (code : Code) (r : Word) (s : State) :
    ∃ t, operate legal script code r s = .next t := by
  unfold operate
  split
  · exact ⟨_, rfl⟩
  · split
    · exact ⟨_, rfl⟩
    · split <;> exact ⟨_, rfl⟩

theorem operate_illegal (script : List Action) (code : Code) (r : Word) (s : State) :
    operate false script code r s = .next (abort .invalidArgument s) := by
  simp [operate]

theorem operate_failed {s : State} (script : List Action) (code : Code) (r : Word) (h : failed s = true) :
    operate true script code r s = .next (abort .transportError s) := by
  simp [operate, h]

theorem operate_transact {s : State} {script : List Action} {a : Action} (code : Code) (r : Word) (hf : failed s = false)
    (ha : script[s.seq.toNat]? = some a) : operate true script code r s = .next (transact a s) := by
  simp [operate, hf, ha]

theorem operate_respond {s : State} {script : List Action} (code : Code) (r : Word) (hf : failed s = false)
    (ha : script[s.seq.toNat]? = none) : operate true script code r s = .next (respond code r s) := by
  simp only [operate, hf, ha]; rfl

end Sys2Proof.Machine
end

