-- ==== Sys2Proof/Laws/Exec.lean ====
section
/-! SUPPORT. `exec` as one `operate`: the script, the code and the result of each operation, and what can be said of every
script at once. -/

namespace Sys2Proof.Machine

/-- The script of an operation, its write-back computed from MIRROR as it stands. -/
def scriptOf (i : Instr) (s : State) : List Action :=
  match i with
  | .readReg addr n => memRead addr n.toNat
  | .writeReg addr value => memWrite addr (lsb value)
  | .setPower on => memWrite controlReg (powerByte on)
  | .setGain high => rmw timingReg gainPreserve (gainBits high) s
  | .setInteg m => rmw timingReg integPreserve (integBits m) s
  | .setManual e => rmw timingReg manualPreserve (manualBits e) s
  | .setThresh sel v => memWrite (threshLsbReg sel) (lsb v) ++ memWrite (threshLsbReg sel + 1#4) (msb v)
  | .setPersist c => rmw interruptReg persistPreserve (persistBits c) s
  | .setIntMode m => rmw interruptReg modePreserve (modeBits m) s
  | .clearInt => [plain (.write1 clearCmd)]
  | .readChipId => memRead idReg 1
  | .readChannels => memRead data0LowReg 4
  | .readTiming => memRead timingReg 1

/-- The code an operation ends with once its script has run. -/
def codeOf : Instr → Code
  | .setIntMode m => intModeCode m
  | _ => .ok

/-- The RESULT an operation ends with once its script has run. -/
def resultOf (i : Instr) (s : State) : Word :=
  match i with
  | .readReg _ n => readRegResult n (answerBytes s)
  | .readChipId => chipIdResult (answerBytes s)
  | .readChannels => channelsResult (answerBytes s)
  | .readTiming => timingResult (answerBytes s)
  | _ => 0#32

/-- Every meaning is one `operate` of its script. -/
theorem exec_eq (i : Instr) (s : State) :
    exec i s = operate i.wellFormed (scriptOf i s) (codeOf i) (resultOf i s) s := by
  cases i <;> rfl

/-- Every meaning answers a next state. -/
theorem exec_next (i : Instr) (s : State) : ∃ t, exec i s = .next t := by
  rw [exec_eq]; exact operate_next _ _ _ _ _

/-- What a meaning can answer, said once. -/
theorem exec_cases {i : Instr} {s t : State} (h : exec i s = .next t) :
    (i.wellFormed = false ∧ t = abort .invalidArgument s) ∨
    (i.wellFormed = true ∧ failed s = true ∧ t = abort .transportError s) ∨
    (i.wellFormed = true ∧ failed s = false ∧ ∃ a, (scriptOf i s)[s.seq.toNat]? = some a ∧ t = transact a s) ∨
    (i.wellFormed = true ∧ failed s = false ∧ (scriptOf i s)[s.seq.toNat]? = none ∧
      t = respond (codeOf i) (resultOf i s) s) := by
  rw [exec_eq] at h; exact operate_cases h

/-- Where each of the four happens. -/
theorem exec_illegal {i : Instr} (s : State) (hw : i.wellFormed = false) : exec i s = .next (abort .invalidArgument s) := by
  rw [exec_eq, hw, operate_illegal]

theorem exec_failed {i : Instr} {s : State} (hw : i.wellFormed = true) (hf : failed s = true) :
    exec i s = .next (abort .transportError s) := by
  rw [exec_eq, hw, operate_failed _ _ _ hf]

theorem exec_transact {i : Instr} {s : State} {a : Action} (hw : i.wellFormed = true) (hf : failed s = false)
    (ha : (scriptOf i s)[s.seq.toNat]? = some a) : exec i s = .next (transact a s) := by
  rw [exec_eq, hw, operate_transact _ _ hf ha]

theorem exec_respond {i : Instr} {s : State} (hw : i.wellFormed = true) (hf : failed s = false)
    (ha : (scriptOf i s)[s.seq.toNat]? = none) : exec i s = .next (respond (codeOf i) (resultOf i s) s) := by
  rw [exec_eq, hw, operate_respond _ _ hf ha]

/-- The longest script has three transactions (spec/10_state.md R21). -/
theorem scriptOf_length (i : Instr) (s : State) : (scriptOf i s).length ≤ 3 := by
  cases i <;> simp [scriptOf, memRead, memWrite, rmw]

@[simp] theorem isRegisterSelect_cmd (a : RegAddr) : isRegisterSelect (cmd a) = true := by revert a; decide

@[simp] theorem selectedRegister_cmd (a : RegAddr) : selectedRegister (cmd a) = a := by revert a; decide

theorem cmd_ne_clearCmd (a : RegAddr) : cmd a ≠ clearCmd := by revert a; decide

/-- A transaction that is due is one of the frames the block may emit (spec/30_encoding.md R90). -/
theorem scriptOf_emittable {i : Instr} {s : State} {a : Action} (hw : i.wellFormed = true) (h : a ∈ scriptOf i s) :
    emittable a.frame = true := by
  cases i <;> simp [scriptOf, memRead, memWrite, rmw, plain] at h <;>
    rcases h with rfl | rfl | rfl <;> simp_all [emittable, Instr.wellFormed, readCountLegal, readMax]

/-- A register-select byte selects its register where the device took it. -/
@[simp] theorem selectionAfter_cmd (a : RegAddr) (r : Reply) (old : RegAddr) :
    selectionAfter (cmd a) r old = if tookCommand r then a else old := by simp [selectionAfter]

/-- A clear command moves the selection only by failing, and then to wherever the transport drew it. -/
@[simp] theorem selectionAfter_clearCmd (r : Reply) (old : RegAddr) :
    selectionAfter clearCmd r old =
      match r with
      | .silent => old
      | .err command _ pointer => if command then pointer else old
      | .ok _ => old := rfl

/-- The answer of a two-byte write never carries bytes, and Ok it stores its byte. -/
theorem deviceTakes_write2 (a : RegAddr) (v : Byte) (r : Reply) (s : State) :
    (deviceTakes (.write2 (cmd a) v) r s).device = if tookData r then Memory.write s.device a.toNat v else s.device := by
  simp [deviceTakes]

end Sys2Proof.Machine
end

