-- ==== Sys2Proof/Laws/PerInstr.lean ====
section
/-! SUPPORT. Facts about every operation as syntax, one lemma per constructor. -/

namespace Sys2Proof.Laws.EncodeMeetsRow

/-- The word of an operation carries its row's OP and meets its row's pattern (spec/30_encoding.md section 4). -/
def Statement (i : Instr) : Prop :=
  opField (encode i) = opOf (opcode i) ∧ encode i &&& maskWord (opcode i) = matchWord (opcode i)

theorem readReg (addr : RegAddr) (n : BitVec 4) : Statement (.readReg addr n) := by
  simp [Statement, encode, opcode, maskWord_fields, matchWord_fields, maskFields, opOf, requestWord_and]

theorem writeReg (addr : RegAddr) (value : Half) : Statement (.writeReg addr value) := by
  simp [Statement, encode, opcode, maskWord_fields, matchWord_fields, maskFields, opOf, requestWord_and]

theorem setPower (on : Half) : Statement (.setPower on) := by
  simp [Statement, encode, opcode, maskWord_fields, matchWord_fields, maskFields, opOf, requestWord_and]

theorem setGain (high : Half) : Statement (.setGain high) := by
  simp [Statement, encode, opcode, maskWord_fields, matchWord_fields, maskFields, opOf, requestWord_and]

theorem setInteg (mode : Half) : Statement (.setInteg mode) := by
  simp [Statement, encode, opcode, maskWord_fields, matchWord_fields, maskFields, opOf, requestWord_and]

theorem setManual (enable : Half) : Statement (.setManual enable) := by
  simp [Statement, encode, opcode, maskWord_fields, matchWord_fields, maskFields, opOf, requestWord_and]

theorem setThresh (sel : ThreshPair) (value : Half) : Statement (.setThresh sel value) := by
  simp [Statement, encode, opcode, maskWord_fields, matchWord_fields, maskFields, opOf, requestWord_and]

theorem setPersist (cycles : Half) : Statement (.setPersist cycles) := by
  simp [Statement, encode, opcode, maskWord_fields, matchWord_fields, maskFields, opOf, requestWord_and]

theorem setIntMode (mode : Half) : Statement (.setIntMode mode) := by
  simp [Statement, encode, opcode, maskWord_fields, matchWord_fields, maskFields, opOf, requestWord_and]

theorem clearInt : Statement .clearInt := by
  simp [Statement, encode, opcode, maskWord_fields, matchWord_fields, maskFields, opOf, requestWord_and]

theorem readChipId : Statement .readChipId := by
  simp [Statement, encode, opcode, maskWord_fields, matchWord_fields, maskFields, opOf, requestWord_and]

theorem readChannels : Statement .readChannels := by
  simp [Statement, encode, opcode, maskWord_fields, matchWord_fields, maskFields, opOf, requestWord_and]

theorem readTiming : Statement .readTiming := by
  simp [Statement, encode, opcode, maskWord_fields, matchWord_fields, maskFields, opOf, requestWord_and]

end Sys2Proof.Laws.EncodeMeetsRow
end

