-- ==== Sys2Proof/Tests/Slice0.lean ====
section
/-! SUPPORT. The model's own tests: expected values from spec/95_test_vectors.md and from the encodings of
spec/30_encoding.md, one step each; then a witness for the hypotheses of every statement. -/

namespace Sys2Proof.Tests

open Sys2Proof Sys2Proof.Machine

/-! ### WellFormed: an ill-formed operation for each check, and the last well-formed value beside it (R87) -/

theorem test_wellFormed_readReg_refuses : (Instr.readReg 0#4 0#4).wellFormed = false ∧
    (Instr.readReg 0#4 5#4).wellFormed = false ∧ (Instr.readReg 0#4 1#4).wellFormed = true ∧
    (Instr.readReg 0#4 4#4).wellFormed = true := by decide

theorem test_wellFormed_writeReg_refuses : (Instr.writeReg 0#4 0x100#16).wellFormed = false ∧
    (Instr.writeReg 0#4 0xFF#16).wellFormed = true := by decide

theorem test_wellFormed_setPower_refuses : (Instr.setPower 2#16).wellFormed = false ∧
    (Instr.setPower 1#16).wellFormed = true := by decide

theorem test_wellFormed_setGain_refuses : (Instr.setGain 2#16).wellFormed = false ∧
    (Instr.setGain 1#16).wellFormed = true := by decide

theorem test_wellFormed_setInteg_refuses : (Instr.setInteg 4#16).wellFormed = false ∧
    (Instr.setInteg 0xFFFF#16).wellFormed = false ∧ (Instr.setInteg 3#16).wellFormed = true := by decide

theorem test_wellFormed_setManual_refuses : (Instr.setManual 2#16).wellFormed = false ∧
    (Instr.setManual 1#16).wellFormed = true := by decide

theorem test_wellFormed_setPersist_refuses : (Instr.setPersist 0x10#16).wellFormed = false ∧
    (Instr.setPersist 15#16).wellFormed = true := by decide

theorem test_wellFormed_setIntMode_refuses : (Instr.setIntMode 4#16).wellFormed = false ∧
    (Instr.setIntMode 3#16).wellFormed = true := by decide

theorem test_wellFormed_setThresh_takes_all : (Instr.setThresh .high 0xFFFF#16).wellFormed = true := by decide

/-! ### Decoding: words written out field by field, OP ADDR N RSV SEL ARG (R80, section 4) -/

theorem test_decode_readReg : decode 0b0001_1100_0010_000_0_0000000000000000#32 = .op (.readReg 0xC#4 2#4) ∧
    decode 0b0001_0000_0001_000_0_0000000000000001#32 = .illegal .unusedFieldNonzero := by decide

theorem test_decode_writeReg : decode 0b0010_0110_0000_000_0_0000000000100000#32 = .op (.writeReg 6#4 0x20#16) ∧
    decode 0b0010_0000_0001_000_0_0000000000000011#32 = .illegal .unusedFieldNonzero := by decide

theorem test_decode_setPower : decode 0b0011_0000_0000_000_0_0000000000000001#32 = .op (.setPower 1#16) ∧
    decode 0b0011_0001_0000_000_0_0000000000000001#32 = .illegal .unusedFieldNonzero := by decide

theorem test_decode_setGain : decode 0b0100_0000_0000_000_0_0000000000000001#32 = .op (.setGain 1#16) := by decide

theorem test_decode_setInteg : decode 0b0101_0000_0000_000_0_0000000000000010#32 = .op (.setInteg 2#16) ∧
    decode 0b0101_0000_0000_000_1_0000000000000010#32 = .illegal .unusedFieldNonzero := by decide

theorem test_decode_setManual : decode 0b0110_0000_0000_000_0_0000000000000001#32 = .op (.setManual 1#16) := by decide

theorem test_decode_setThresh : decode 0b0111_0000_0000_000_0_0000000100101100#32 = .op (.setThresh .low 300#16) ∧
    decode 0b0111_0000_0000_000_1_0001001000110100#32 = .op (.setThresh .high 0x1234#16) ∧
    decode 0b0111_0000_0000_001_0_0000000000000000#32 = .illegal .unusedFieldNonzero := by decide

theorem test_decode_setPersist : decode 0b1000_0000_0000_000_0_0000000000001111#32 = .op (.setPersist 15#16) := by decide

theorem test_decode_setIntMode : decode 0b1001_0000_0000_000_0_0000000000000010#32 = .op (.setIntMode 2#16) := by decide

theorem test_decode_clearInt : decode 0b1010_0000_0000_000_0_0000000000000000#32 = .op .clearInt := by decide

theorem test_decode_readChipId : decode 0b1011_0000_0000_000_0_0000000000000000#32 = .op .readChipId := by decide

theorem test_decode_readChannels : decode 0b1100_0000_0000_000_0_0000000000000000#32 = .op .readChannels ∧
    decode 0b1100_1100_0000_000_0_0000000000000000#32 = .illegal .unusedFieldNonzero := by decide

theorem test_decode_readTiming : decode 0b1101_0000_0000_000_0_0000000000000000#32 = .op .readTiming := by decide

/-- The words of the pseudo-instructions (R100) and of the programs of spec/95_test_vectors.md, from the encoder. -/
theorem test_encode_words : encode (.setPower 1#16) = 0x30000001#32 ∧ encode (.setThresh .low 300#16) = 0x7000012C#32 ∧
    encode (.setThresh .high 0xABCD#16) = 0x7001ABCD#32 ∧ encode (.readReg 2#4 4#4) = 0x12400000#32 ∧
    encode (.writeReg 6#4 0x20#16) = 0x26000020#32 ∧ encode .readTiming = 0xD0000000#32 := by decide

theorem test_decodeTableWord : decodeTableWord 32 0x7001ABCD = some (.setThresh .high 0xABCD#16) ∧
    decodeTableWord 32 0xE0000000 = none := by decide

/-- Lines of spec/95_test_vectors.md section 3 and R99. -/
theorem test_assembleLine_words : assembleLine "SET_INTEG 4".toList = .word 0x50000004#32 ∧
    assembleLine "SET_THRESH HIGH, 0xABCD ; 0x7001ABCD".toList = .word 0x7001ABCD#32 ∧
    assembleLine "READ_REG 0x2, 4".toList = .word 0x12400000#32 ∧
    assembleLine "SET_THRESH_LOW 300".toList = .word 0x7000012C#32 ∧
    assembleLine ".word 0xE0000000".toList = .word 0xE0000000#32 := by decide

theorem test_assembleLine_refuses : assembleLine "READ_REG 16, 4".toList = .refused ∧
    assembleLine "READ_REG 2, 16".toList = .refused ∧ assembleLine "SET_GAIN 65536".toList = .refused ∧
    assembleLine "READ_REG 1,".toList = .refused ∧ assembleLine " ; comment".toList = .blank := by decide

/-! ### Small states -/

/-- An operation just accepted, with the replies the transport will give. -/
def due (i : Instr) (replies : List Reply) : State := { accept (encode i) State.reset with replies := replies }

/-- The same operation later on, all its transactions so far Ok. -/
def later (i : Instr) (seq : BitVec 2) (mirror : Byte) (trace : List Transaction) (replies : List Reply) : State :=
  { due i replies with seq := seq, mirror := mirror, trace := trace }

/-- An RMW before its write-back, `cur` read. -/
def beforeWriteBack (i : Instr) (addr : RegAddr) (cur : Byte) (replies : List Reply) : State :=
  later i 2#2 cur [⟨.write1 (cmd addr), .ok []⟩, ⟨.read 1, .ok [cur]⟩] replies

/-- A reading operation before its response, `bytes` read. -/
def beforeResponse (i : Instr) (addr : RegAddr) (bytes : List Byte) : State :=
  later i 2#2 0#8 [⟨.write1 (cmd addr), .ok []⟩, ⟨.read bytes.length, .ok bytes⟩] []

/-- What one step of an operation shows. -/
def see {α : Type} (f : State → α) (i : Instr) (s : State) : Option α :=
  match exec i s with
  | .next t => some (f t)
  | .fault _ => none
  | .refused _ => none

/-- The last transaction and the device record. -/
def sent (s : State) : Option Transaction × List Host.Cell := (s.trace.getLast?, s.device)

/-- The response, if there is one. -/
def response (s : State) : Bool × BitVec 3 × Word := (s.rspValid, rspStatus s, rspResult s)

/-! ### One step of every operation (spec/95_test_vectors.md sections 1 and 2) -/

/-- Vector 0x1C200000. -/
theorem test_readReg_result :
    see response (.readReg 0xC#4 2#4) (beforeResponse (.readReg 0xC#4 2#4) 0xC#4 [0x34#8, 0x12#8]) =
      some (true, 0#3, 0x00001234#32) := by decide

/-- Vector 0x10500000. -/
theorem test_readReg_count_of_five : see response (.readReg 0#4 5#4) (due (.readReg 0#4 5#4) [.ok []]) =
    some (true, 2#3, 0#32) := by decide

/-- Vector 0x26000020. -/
theorem test_writeReg_raw : see sent (.writeReg 6#4 0x20#16) (due (.writeReg 6#4 0x20#16) [.ok []]) =
    some (some ⟨.write2 0x86#8 0x20#8, .ok []⟩, [(6, 0x20#8)]) := by decide

/-- Vector 0x20000100. -/
theorem test_writeReg_too_wide : see response (.writeReg 0#4 0x100#16) (due (.writeReg 0#4 0x100#16) [.ok []]) =
    some (true, 2#3, 0#32) := by decide

/-- Vector 0x30000001. -/
theorem test_setPower_on : see sent (.setPower 1#16) (due (.setPower 1#16) [.ok []]) =
    some (some ⟨.write2 0x80#8 0x03#8, .ok []⟩, [(0, 0x03#8)]) := by decide

/-- Vector 0x30000000. -/
theorem test_setPower_off : see sent (.setPower 0#16) (due (.setPower 0#16) [.ok []]) =
    some (some ⟨.write2 0x80#8 0x00#8, .ok []⟩, [(0, 0x00#8)]) := by decide

/-- Vector 0x40000001 with cur = 0xE6 (S1 as spec/90_conflicts.md C1 restricts it). -/
theorem test_setGain_clears_unpreserved :
    see sent (.setGain 1#16) (beforeWriteBack (.setGain 1#16) 1#4 0xE6#8 [.ok []]) =
      some (some ⟨.write2 0x81#8 0x12#8, .ok []⟩, [(1, 0x12#8)]) := by decide

/-- Vector 0x40000000 with cur = 0x1B. -/
theorem test_setGain_low : see sent (.setGain 0#16) (beforeWriteBack (.setGain 0#16) 1#4 0x1B#8 [.ok []]) =
    some (some ⟨.write2 0x81#8 0x0B#8, .ok []⟩, [(1, 0x0B#8)]) := by decide

/-- Vector 0x50000002 with cur = 0xFF. -/
theorem test_setInteg_replaces : see sent (.setInteg 2#16) (beforeWriteBack (.setInteg 2#16) 1#4 0xFF#8 [.ok []]) =
    some (some ⟨.write2 0x81#8 0x1A#8, .ok []⟩, [(1, 0x1A#8)]) := by decide

/-- Vector 0x50000004. -/
theorem test_setInteg_four : see response (.setInteg 4#16) (due (.setInteg 4#16) [.ok []]) = some (true, 2#3, 0#32) := by decide

/-- Vector 0x60000001 with cur = 0x02 (spec/90_conflicts.md C2). -/
theorem test_setManual_sets : see sent (.setManual 1#16) (beforeWriteBack (.setManual 1#16) 1#4 0x02#8 [.ok []]) =
    some (some ⟨.write2 0x81#8 0x0A#8, .ok []⟩, [(1, 0x0A#8)]) := by decide

/-- Vector 0x60000000 with cur = 0xFF. -/
theorem test_setManual_clears : see sent (.setManual 0#16) (beforeWriteBack (.setManual 0#16) 1#4 0xFF#8 [.ok []]) =
    some (some ⟨.write2 0x81#8 0x17#8, .ok []⟩, [(1, 0x17#8)]) := by decide

/-- Vector 0x7000012C, its first write. -/
theorem test_setThresh_lsb_first :
    see sent (.setThresh .low 300#16) (due (.setThresh .low 300#16) [.ok [], .ok []]) =
      some (some ⟨.write2 0x82#8 0x2C#8, .ok []⟩, [(2, 0x2C#8)]) := by decide

/-- Vector 0x70011234, its second write failing and not taken. -/
theorem test_setThresh_second_fails :
    see sent (.setThresh .high 0x1234#16)
        (later (.setThresh .high 0x1234#16) 1#2 0#8 [⟨.write2 0x84#8 0x34#8, .ok []⟩] [.err true false 0#4]) =
      some (some ⟨.write2 0x85#8 0x12#8, .err⟩, []) := by decide

/-- Vector 0x80000005 with cur = 0xFF. -/
theorem test_setPersist_keeps_mode : see sent (.setPersist 5#16) (beforeWriteBack (.setPersist 5#16) 6#4 0xFF#8 [.ok []]) =
    some (some ⟨.write2 0x86#8 0x35#8, .ok []⟩, [(6, 0x35#8)]) := by decide

/-- Vector 0x90000001 with cur = 0x0F. -/
theorem test_setIntMode_keeps_persist :
    see sent (.setIntMode 1#16) (beforeWriteBack (.setIntMode 1#16) 6#4 0x0F#8 [.ok []]) =
      some (some ⟨.write2 0x86#8 0x1F#8, .ok []⟩, [(6, 0x1F#8)]) := by decide

/-- Vector 0x90000002: the warning after the write. -/
theorem test_setIntMode_warns :
    see response (.setIntMode 2#16) (later (.setIntMode 2#16) 3#2 0x03#8
      [⟨.write1 0x86#8, .ok []⟩, ⟨.read 1, .ok [0x03#8]⟩, ⟨.write2 0x86#8 0x23#8, .ok []⟩] []) =
      some (true, 3#3, 0#32) := by decide

/-- Vector 0xA0000000. -/
theorem test_clearInt_byte : see sent .clearInt (due .clearInt [.ok []]) = some (some ⟨.write1 0xE0#8, .ok []⟩, []) := by decide

/-- Vector 0xA0000000 with Err: the step after the failure. -/
theorem test_clearInt_failed :
    see response .clearInt (later .clearInt 0#2 0#8 [⟨.write1 0xE0#8, .err⟩] []) = some (true, 1#3, 0#32) := by decide

/-- Vector 0xB0000000 with ID = 0x50 (S3). -/
theorem test_readChipId_nibble : see response .readChipId (beforeResponse .readChipId 0xA#4 [0x50#8]) =
    some (true, 0#3, 0x00000005#32) := by decide

/-- Vector 0xC0000000 with 34 12 78 56 (S10). -/
theorem test_readChannels_halves :
    see response .readChannels (beforeResponse .readChannels 0xC#4 [0x34#8, 0x12#8, 0x78#8, 0x56#8]) =
      some (true, 0#3, 0x56781234#32) := by decide

/-- Vector 0xC0000000 with three bytes returned: the read is Err. -/
theorem test_readChannels_short :
    see sent .readChannels (later .readChannels 1#2 0#8 [⟨.write1 0x8C#8, .ok []⟩] [.ok [1#8, 2#8, 3#8]]) =
      some (some ⟨.read 4, .err⟩, []) := by decide

/-- Vector 0xD0000000 with TIMING = 0x1A. -/
theorem test_readTiming_fields : see response .readTiming (beforeResponse .readTiming 1#4 [0x1A#8]) =
    some (true, 0#3, 0x00000D1A#32) := by decide

/-- The host's placed word is the operation the very next step runs. -/
theorem test_withFetchWord_runs :
    step ({ State.reset with replies := [.ok []] }.withFetchWord 32 0x30000001) =
      exec (.setPower 1#16) ({ State.reset with replies := [.ok []] }.withFetchWord 32 0x30000001) := rfl

/-! ### Witnesses: for every statement with hypotheses, data that meets them, each clause at a boundary -/

theorem test_witness_EncodeOfDecode : decode 0x7001FFFF#32 = .op (.setThresh .high 0xFFFF#16) := by decide

/-- The last clause: no row matches. -/
theorem test_witness_DecodeFollowsOpcodeTable_none : ∀ w ∈ [0xE0000000#32, 0x100FFFFF#32, 0x7FFEFFFF#32, 0xD0000001#32],
    w &&& 0xF00FFFFF#32 ≠ 0x10000000#32 ∧ w &&& 0xF0FF0000#32 ≠ 0x20000000#32 ∧
    w &&& 0xFFFF0000#32 ∉ [0x30000000#32, 0x40000000#32, 0x50000000#32, 0x60000000#32, 0x80000000#32, 0x90000000#32] ∧
    w &&& 0xFFFE0000#32 ≠ 0x70000000#32 ∧ w ∉ [0xA0000000#32, 0xB0000000#32, 0xC0000000#32, 0xD0000000#32] := by
  simp

/-- The row clauses, each at its largest word. -/
theorem test_witness_DecodeFollowsOpcodeTable_rows : 0x1FF00000#32 &&& 0xF00FFFFF#32 = 0x10000000#32 ∧
    0x2F00FFFF#32 &&& 0xF0FF0000#32 = 0x20000000#32 ∧ 0x3000FFFF#32 &&& 0xFFFF0000#32 = 0x30000000#32 ∧
    0x4000FFFF#32 &&& 0xFFFF0000#32 = 0x40000000#32 ∧ 0x5000FFFF#32 &&& 0xFFFF0000#32 = 0x50000000#32 ∧
    0x6000FFFF#32 &&& 0xFFFF0000#32 = 0x60000000#32 ∧ 0x7001FFFF#32 &&& 0xFFFE0000#32 = 0x70000000#32 ∧
    0x8000FFFF#32 &&& 0xFFFF0000#32 = 0x80000000#32 ∧ 0x9000FFFF#32 &&& 0xFFFF0000#32 = 0x90000000#32 := by decide

/-- Every RMW at its last legal argument; also the hypotheses on the operation of RmwOperationsComplete. -/
theorem test_witness_FieldsRoundTrip : ∀ x ∈ [(Instr.setGain 1#16, 1#4, 0x0B#8, 0x10#8), (.setInteg 3#16, 1#4, 0x18#8, 3#8),
      (.setManual 1#16, 1#4, 0x17#8, 8#8), (.setPersist 15#16, 6#4, 0x30#8, 15#8), (.setIntMode 3#16, 6#4, 0x0F#8, 0x30#8)],
    x.1.wellFormed = true ∧ rmwOf x.1 = some x.2 := by decide

theorem test_witness_ResetLeavesIdle :
    (∀ h ∈ [[], [HostEvent.quiet], [.reset, .request 0#32]], presented { State.reset with host := h } = none) ∧
    ∀ h ∈ [[HostEvent.request 5#32], [.offer 5#32, .reset]], presented { State.reset with host := h } = some 5#32 := by decide

/-- An RMW whose write-back comes next meets the invariant. -/
theorem test_witness_StepKeepsInv : ∃ s t, MachineInv s ∧ step s = .next t ∧ t.device = [(6, 0x23#8)] := by
  refine ⟨beforeWriteBack (.setIntMode 2#16) 6#4 0x03#8 [.ok []], _, ?_, rfl, by decide⟩
  constructor <;> decide

theorem test_witness_StepRunsDecodedInstruction :
    (∃ s, s.busy = true ∧ noResetNow s ∧ decode s.req = .op .readTiming) ∧
    decodeTableWord 32 0xD0000000 = some .readTiming := by
  refine ⟨⟨due .readTiming [], by decide, ?_, by decide⟩, by decide⟩
  intro _ h; cases h

/-- An idle block and its host. -/
def idle (host : List HostEvent) : State := { State.reset with host := host }

theorem test_witness_AcceptanceLatchesRequest : ∀ h ∈ [[HostEvent.request 0xE0000000#32], [.offer 0#32, .reset], [.quiet], []],
    (idle h).busy = false ∧ (idle h).host = h := by decide

/-- A busy block and its host. -/
def working (host : List HostEvent) : State := { due .clearInt [.ok []] with host := host }

theorem test_witness_BusyBlockLeavesRequestPresented :
    (∃ s t, s.busy = true ∧ s.host = [.request 0xD0000000#32] ∧ step s = .next t) ∧
    (∃ s t, s.busy = true ∧ s.host = [.offer 0xD0000000#32] ∧ step s = .next t) :=
  ⟨⟨working [.request 0xD0000000#32], _, rfl, rfl, rfl⟩, ⟨working [.offer 0xD0000000#32], _, rfl, rfl, rfl⟩⟩

theorem test_witness_ResetAbandonsOperation :
    ∀ f ∈ [none, some (Frame.write1 0xE0#8), some (.write1 (cmd 0xF#4)), some (.write2 0x85#8 0x12#8), some (.read 4)],
      ({ working [.reset] with inFlight := f } : State).host = [.reset] ∧
      ({ working [.reset] with inFlight := f } : State).inFlight = f := by decide

theorem test_witness_IllegalWordEndsAtOnce :
    (∃ s, s.busy = true ∧ noResetNow s ∧ decode s.req = .illegal .reservedOp) ∧
    (∃ s : State, s.busy = false ∧ s.host = [.request 0x51000009#32] ∧ decode 0x51000009#32 = .illegal .unusedFieldNonzero) := by
  refine ⟨⟨accept 0xFFFFFFFF#32 State.reset, by decide, ?_, by decide⟩,
    ⟨idle [.request 0x51000009#32], by decide, by decide, by decide⟩⟩
  intro _ h; cases h

theorem test_witness_OutOfRangeEndsAtOnce : ∀ i ∈ [Instr.readReg 0xF#4 5#4, .setGain 2#16, .setPersist 16#16],
    i.wellFormed = false ∧ (idle [.request (encode i)]).busy = false ∧
    (idle [.request (encode i)]).host = [.request (encode i)] := by decide

/-- An RMW whose read failed. -/
def failedRead : State := later (.setGain 1#16) 1#2 0#8 [⟨.write1 0x81#8, .ok []⟩, ⟨.read 1, .err⟩] []

theorem test_witness_TransportErrorEndsOperation : (Instr.setGain 1#16).wellFormed = true ∧
    failedRead.trace = [⟨.write1 0x81#8, .ok []⟩] ++ [⟨.read 1, .err⟩] ∧ MachineInv failedRead := by
  refine ⟨by decide, by decide, ?_⟩
  constructor <;> decide

theorem test_witness_TransportErrorCauses :
    (∃ t, exec (.setGain 1#16) failedRead = .next t ∧ t.rspValid = true ∧ t.status = 1#3) ∧
    (∃ s t, exec .clearInt s = .next t ∧ t.trace = s.trace ++ [⟨.write1 0xE0#8, .err⟩] ∧ t.rspValid = false ∧
      nextReply s = .err false true 0#4) ∧
    (∃ s t, exec .readChannels s = .next t ∧ t.trace = s.trace ++ [⟨.read 4, .err⟩] ∧ nextReply s = .ok [1#8, 2#8, 3#8] ∧
      [1#8, 2#8, 3#8].length ≠ 4) :=
  ⟨⟨_, rfl, rfl, rfl⟩, ⟨due .clearInt [.err false true 0#4], _, rfl, rfl, rfl, rfl⟩,
    ⟨later .readChannels 1#2 0#8 [⟨.write1 0x8C#8, .ok []⟩] [.ok [1#8, 2#8, 3#8]], _, rfl, rfl, rfl, by decide⟩⟩

/-- One response under each number of R197. -/
theorem test_witness_OutcomePriority :
    (∃ s t, s.busy = true ∧ noResetNow s ∧ step s = .next t ∧ t.rspValid = true ∧ decode s.req = .illegal .reservedOp) ∧
    (∃ s t, s.busy = true ∧ noResetNow s ∧ step s = .next t ∧ t.rspValid = true ∧ decode s.req = .op (.setInteg 4#16) ∧
      (Instr.setInteg 4#16).wellFormed = false) ∧
    (∃ s t, s.busy = true ∧ noResetNow s ∧ step s = .next t ∧ t.rspValid = true ∧ decode s.req = .op (.setIntMode 2#16) ∧
      (Instr.setIntMode 2#16).wellFormed = true ∧ s.trace = [⟨.write1 0x86#8, .ok []⟩] ++ [⟨.read 1, .err⟩]) ∧
    (∃ s t, s.busy = true ∧ noResetNow s ∧ step s = .next t ∧ t.rspValid = true ∧ decode s.req = .op (.setIntMode 2#16) ∧
      s.trace = [] ∧ (Instr.setIntMode 2#16).wellFormed = true) ∧
    (∃ s t, s.busy = true ∧ noResetNow s ∧ step s = .next t ∧ t.rspValid = true ∧ decode s.req = .op .clearInt ∧
      s.trace = [] ∧ Instr.clearInt.wellFormed = true ∧ Instr.clearInt ≠ .setIntMode 2#16) := by
  refine ⟨⟨accept 0#32 State.reset, _, rfl, ?_, rfl, rfl, by decide⟩, ⟨due (.setInteg 4#16) [], _, rfl, ?_, rfl, rfl, by decide, by decide⟩,
    ⟨later (.setIntMode 2#16) 1#2 0#8 [⟨.write1 0x86#8, .ok []⟩, ⟨.read 1, .err⟩] [], _, rfl, ?_, rfl, rfl, by decide, by decide, rfl⟩,
    ⟨later (.setIntMode 2#16) 3#2 0#8 [] [], _, rfl, ?_, rfl, rfl, by decide, rfl, by decide⟩,
    ⟨later .clearInt 1#2 0#8 [] [], _, rfl, ?_, rfl, rfl, by decide, rfl, by decide, by decide⟩⟩ <;> (intro _ h; cases h)

theorem test_witness_ResponseExactlyAtTheEnd :
    (∃ s t, step s = .next t ∧ noResetNow s ∧ s.busy = true ∧ t.busy = false) ∧
    (∃ s t, step s = .next t ∧ s.host = .reset :: []) := by
  refine ⟨⟨later .clearInt 1#2 0#8 [⟨.write1 0xE0#8, .ok []⟩] [], _, rfl, ?_, rfl, rfl⟩, ⟨working [.reset], _, rfl, rfl⟩⟩
  intro _ h; cases h

/-- One operation of each shape of RESULT, and one of them under a code other than Ok. -/
theorem test_witness_ResultLayout :
    (∃ s t, exec (.readReg 2#4 4#4) s = .next t ∧ t.rspValid = true ∧ t.status = 0#3 ∧
      s.trace = [⟨.write1 0x82#8, .ok []⟩] ++ [⟨.read 4, .ok [0x2C#8, 1#8, 0xCD#8, 0xAB#8]⟩]) ∧
    (∃ s t, exec .readChipId s = .next t ∧ t.rspValid = true ∧ t.status = 0#3 ∧
      s.trace = [⟨.write1 0x8A#8, .ok []⟩] ++ [⟨.read 1, .ok [0xFF#8]⟩]) ∧
    (∃ s t, exec .readChannels s = .next t ∧ t.rspValid = true ∧ t.status = 0#3 ∧
      s.trace = [⟨.write1 0x8C#8, .ok []⟩] ++ [⟨.read 4, .ok [0xFF#8, 0xFF#8, 0xFF#8, 0xFF#8]⟩]) ∧
    (∃ s t, exec .readTiming s = .next t ∧ t.rspValid = true ∧ t.status = 0#3 ∧
      s.trace = [⟨.write1 0x81#8, .ok []⟩] ++ [⟨.read 1, .ok [0xFF#8]⟩]) ∧
    (∃ s t, exec .clearInt s = .next t ∧ t.rspValid = true ∧ t.status = 0#3) ∧
    (∃ s t, exec (.readReg 2#4 5#4) s = .next t ∧ t.rspValid = true ∧ t.status ≠ 0#3) :=
  ⟨⟨beforeResponse (.readReg 2#4 4#4) 2#4 [0x2C#8, 1#8, 0xCD#8, 0xAB#8], _, rfl, rfl, rfl, rfl⟩,
    ⟨beforeResponse .readChipId 0xA#4 [0xFF#8], _, rfl, rfl, rfl, rfl⟩,
    ⟨beforeResponse .readChannels 0xC#4 [0xFF#8, 0xFF#8, 0xFF#8, 0xFF#8], _, rfl, rfl, rfl, rfl⟩,
    ⟨beforeResponse .readTiming 1#4 [0xFF#8], _, rfl, rfl, rfl, rfl⟩,
    ⟨later .clearInt 1#2 0#8 [⟨.write1 0xE0#8, .ok []⟩] [], _, rfl, rfl, rfl⟩,
    ⟨due (.readReg 2#4 5#4) [], _, rfl, rfl, by decide⟩⟩

/-- A state due to run an operation from its start, its three transactions answered Ok, the second with `bytes`. -/
def obliging (i : Instr) (bytes : List Byte) : State := due i [.ok [], .ok bytes, .ok []]

theorem test_witness_ReadRegCompletes : ∀ x ∈ [(0#4, 1#4, [9#8]), (0xF#4, 4#4, [1#8, 2#8, 3#8, 4#8])],
    (obliging (.readReg x.1 x.2.1) x.2.2).trace = [] ∧ (obliging (.readReg x.1 x.2.1) x.2.2).seq = 0#2 ∧
    1 ≤ x.2.1.toNat ∧ x.2.1.toNat ≤ 4 ∧ replyAfter 0 (obliging (.readReg x.1 x.2.1) x.2.2) = .ok [] ∧
    replyAfter 1 (obliging (.readReg x.1 x.2.1) x.2.2) = .ok x.2.2 ∧ x.2.2.length = x.2.1.toNat := by
  intro x hx
  obtain ⟨h1, h2, h3⟩ := (by decide : ∀ x ∈ [(0#4, 1#4, [9#8]), (0xF#4, 4#4, [1#8, 2#8, 3#8, 4#8])],
    1 ≤ x.2.1.toNat ∧ x.2.1.toNat ≤ 4 ∧ x.2.2.length = x.2.1.toNat) x hx
  exact ⟨rfl, rfl, h1, h2, rfl, rfl, h3⟩

theorem test_witness_WriteRegCompletes : ∀ v ∈ [0#16, 0xFF#16], (obliging (.writeReg 0xF#4 v) []).trace = [] ∧
    (obliging (.writeReg 0xF#4 v) []).seq = 0#2 ∧ v.toNat ≤ 0xFF ∧
    replyAfter 0 (obliging (.writeReg 0xF#4 v) []) = .ok [] := by
  intro v hv
  have h : v.toNat ≤ 0xFF := by simp at hv; rcases hv with rfl | rfl <;> decide
  exact ⟨rfl, rfl, h, rfl⟩

theorem test_witness_SetPowerCompletes : ∀ v ∈ [0#16, 1#16], (obliging (.setPower v) []).trace = [] ∧
    (obliging (.setPower v) []).seq = 0#2 ∧ (v = 0#16 ∨ v = 1#16) ∧
    replyAfter 0 (obliging (.setPower v) []) = .ok [] := by
  intro v hv
  exact ⟨rfl, rfl, by simpa using hv, rfl⟩

/-- Every RMW at the last legal argument; also the successful clause of RmwTraceLengths. -/
theorem test_witness_RmwOperationsComplete :
    ∀ i ∈ [Instr.setGain 1#16, .setInteg 3#16, .setManual 1#16, .setPersist 15#16, .setIntMode 2#16, .setIntMode 3#16],
      (rmwOf i).isSome = true ∧ i.wellFormed = true ∧ (obliging i [0xFF#8]).trace = [] ∧ (obliging i [0xFF#8]).seq = 0#2 ∧
      replyAfter 0 (obliging i [0xFF#8]) = .ok [] ∧ replyAfter 1 (obliging i [0xFF#8]) = .ok [0xFF#8] ∧
      replyAfter 2 (obliging i [0xFF#8]) = .ok [] := by
  intro i hi
  obtain ⟨h1, h2⟩ := (by decide : ∀ i ∈ [Instr.setGain 1#16, .setInteg 3#16, .setManual 1#16, .setPersist 15#16,
    .setIntMode 2#16, .setIntMode 3#16], (rmwOf i).isSome = true ∧ i.wellFormed = true) i hi
  exact ⟨h1, h2, rfl, rfl, rfl, rfl, rfl⟩

theorem test_witness_SetGainWritesTiming : ∀ v ∈ [0#16, 1#16], (v = 0#16 ∨ v = 1#16) ∧
    (obliging (.setGain v) [0xE6#8]).trace = [] ∧ (obliging (.setGain v) [0xE6#8]).seq = 0#2 ∧
    replyAfter 0 (obliging (.setGain v) [0xE6#8]) = .ok [] ∧ replyAfter 1 (obliging (.setGain v) [0xE6#8]) = .ok [0xE6#8] ∧
    replyAfter 2 (obliging (.setGain v) [0xE6#8]) = .ok [] := by
  intro v hv
  exact ⟨by simpa using hv, rfl, rfl, rfl, rfl, rfl⟩

theorem test_witness_SetIntegWritesTiming : ∀ v ∈ [0#16, 3#16], v.toNat ≤ 3 ∧
    (obliging (.setInteg v) [0xFF#8]).trace = [] ∧ (obliging (.setInteg v) [0xFF#8]).seq = 0#2 ∧
    replyAfter 0 (obliging (.setInteg v) [0xFF#8]) = .ok [] ∧ replyAfter 1 (obliging (.setInteg v) [0xFF#8]) = .ok [0xFF#8] ∧
    replyAfter 2 (obliging (.setInteg v) [0xFF#8]) = .ok [] := by
  intro v hv
  have h : v.toNat ≤ 3 := by simp at hv; rcases hv with rfl | rfl <;> decide
  exact ⟨h, rfl, rfl, rfl, rfl, rfl⟩

theorem test_witness_SetManualWritesTiming : ∀ v ∈ [0#16, 1#16], (v = 0#16 ∨ v = 1#16) ∧
    (obliging (.setManual v) [0xFF#8]).trace = [] ∧ (obliging (.setManual v) [0xFF#8]).seq = 0#2 ∧
    replyAfter 0 (obliging (.setManual v) [0xFF#8]) = .ok [] ∧ replyAfter 1 (obliging (.setManual v) [0xFF#8]) = .ok [0xFF#8] ∧
    replyAfter 2 (obliging (.setManual v) [0xFF#8]) = .ok [] := by
  intro v hv
  exact ⟨by simpa using hv, rfl, rfl, rfl, rfl, rfl⟩

theorem test_witness_SetPersistWritesInterrupt : ∀ v ∈ [0#16, 15#16], v.toNat ≤ 15 ∧
    (obliging (.setPersist v) [0xFF#8]).trace = [] ∧ (obliging (.setPersist v) [0xFF#8]).seq = 0#2 ∧
    replyAfter 0 (obliging (.setPersist v) [0xFF#8]) = .ok [] ∧ replyAfter 1 (obliging (.setPersist v) [0xFF#8]) = .ok [0xFF#8] ∧
    replyAfter 2 (obliging (.setPersist v) [0xFF#8]) = .ok [] := by
  intro v hv
  have h : v.toNat ≤ 15 := by simp at hv; rcases hv with rfl | rfl <;> decide
  exact ⟨h, rfl, rfl, rfl, rfl, rfl⟩

theorem test_witness_SetIntModeWritesInterrupt : ∀ v ∈ [0#16, 2#16, 3#16], v.toNat ≤ 3 ∧
    (obliging (.setIntMode v) [3#8]).trace = [] ∧ (obliging (.setIntMode v) [3#8]).seq = 0#2 ∧
    replyAfter 0 (obliging (.setIntMode v) [3#8]) = .ok [] ∧ replyAfter 1 (obliging (.setIntMode v) [3#8]) = .ok [3#8] ∧
    replyAfter 2 (obliging (.setIntMode v) [3#8]) = .ok [] := by
  intro v hv
  have h : v.toNat ≤ 3 := by simp at hv; rcases hv with rfl | rfl | rfl <;> decide
  exact ⟨h, rfl, rfl, rfl, rfl, rfl⟩

theorem test_witness_SetThreshCompletes : ∀ x ∈ [(ThreshPair.low, 2#4, 3#4), (.high, 4#4, 5#4)],
    (obliging (.setThresh x.1 0xFFFF#16) []).trace = [] ∧ (obliging (.setThresh x.1 0xFFFF#16) []).seq = 0#2 ∧
    (x.1 = .low → x.2.1 = 2#4 ∧ x.2.2 = 3#4) ∧ (x.1 = .high → x.2.1 = 4#4 ∧ x.2.2 = 5#4) ∧
    replyAfter 0 (obliging (.setThresh x.1 0xFFFF#16) []) = .ok [] ∧
    replyAfter 1 (obliging (.setThresh x.1 0xFFFF#16) []) = .ok [] := by
  intro x hx
  obtain ⟨h1, h2⟩ := (by decide : ∀ x ∈ [(ThreshPair.low, 2#4, 3#4), (.high, 4#4, 5#4)],
    (x.1 = .low → x.2.1 = 2#4 ∧ x.2.2 = 3#4) ∧ (x.1 = .high → x.2.1 = 4#4 ∧ x.2.2 = 5#4)) x hx
  exact ⟨rfl, rfl, h1, h2, rfl, rfl⟩

theorem test_witness_ClearIntCompletes : (obliging .clearInt []).trace = [] ∧ (obliging .clearInt []).seq = 0#2 ∧
    replyAfter 0 (obliging .clearInt []) = .ok [] := ⟨rfl, rfl, rfl⟩

theorem test_witness_ReadChipIdCompletes : (obliging .readChipId [0x50#8]).trace = [] ∧
    (obliging .readChipId [0x50#8]).seq = 0#2 ∧ replyAfter 0 (obliging .readChipId [0x50#8]) = .ok [] ∧
    replyAfter 1 (obliging .readChipId [0x50#8]) = .ok [0x50#8] := ⟨rfl, rfl, rfl, rfl⟩

theorem test_witness_ReadChannelsCompletes : (obliging .readChannels [1#8, 2#8, 3#8, 4#8]).trace = [] ∧
    (obliging .readChannels [1#8, 2#8, 3#8, 4#8]).seq = 0#2 ∧
    replyAfter 0 (obliging .readChannels [1#8, 2#8, 3#8, 4#8]) = .ok [] ∧
    replyAfter 1 (obliging .readChannels [1#8, 2#8, 3#8, 4#8]) = .ok [1#8, 2#8, 3#8, 4#8] := ⟨rfl, rfl, rfl, rfl⟩

theorem test_witness_ReadTimingCompletes : (obliging .readTiming [0x1A#8]).trace = [] ∧
    (obliging .readTiming [0x1A#8]).seq = 0#2 ∧ replyAfter 0 (obliging .readTiming [0x1A#8]) = .ok [] ∧
    replyAfter 1 (obliging .readTiming [0x1A#8]) = .ok [0x1A#8] := ⟨rfl, rfl, rfl, rfl⟩

/-- The three failing clauses, the second also by a count of 0, and the last one. -/
theorem test_witness_RmwTraceLengths :
    rmwOf (.setGain 1#16) = some (1#4, 0x0B#8, 0x10#8) ∧ (Instr.setGain 1#16).wellFormed = true ∧
    replyAfter 0 (due (.setGain 1#16) [.err false true 0#4]) = .err false true 0#4 ∧
    replyAfter 0 (due (.setGain 1#16) [.ok [], .err true false 0#4]) = .ok [] ∧
    replyAfter 1 (due (.setGain 1#16) [.ok [], .err true false 0#4]) = .err true false 0#4 ∧
    replyAfter 0 (due (.setGain 1#16) [.ok [], .ok []]) = .ok [] ∧
    replyAfter 1 (due (.setGain 1#16) [.ok [], .ok []]) = .ok [] ∧ ([] : List Byte).length ≠ 1 ∧
    replyAfter 0 (due (.setGain 1#16) [.ok [], .ok [2#8], .err true true 0#4]) = .ok [] ∧
    replyAfter 1 (due (.setGain 1#16) [.ok [], .ok [2#8], .err true true 0#4]) = .ok [2#8] ∧
    replyAfter 2 (due (.setGain 1#16) [.ok [], .ok [2#8], .err true true 0#4]) = .err true true 0#4 ∧
    replyAfter 1 (obliging (.setGain 1#16) [2#8]) = .ok [2#8] ∧ replyAfter 2 (obliging (.setGain 1#16) [2#8]) = .ok [] ∧
    ∀ rs, (due (.setGain 1#16) rs).trace = [] ∧ (due (.setGain 1#16) rs).seq = 0#2 :=
  ⟨rfl, rfl, rfl, rfl, rfl, rfl, rfl, by decide, rfl, rfl, rfl, rfl, rfl, fun _ => ⟨rfl, rfl⟩⟩

theorem test_witness_SetThreshHalfUpdated : ∀ x ∈ [(ThreshPair.low, 2#4, 3#4, false), (.high, 4#4, 5#4, true)],
    (due (.setThresh x.1 0x1234#16) [.ok [], .err true x.2.2.2 0#4]).trace = [] ∧
    (due (.setThresh x.1 0x1234#16) [.ok [], .err true x.2.2.2 0#4]).seq = 0#2 ∧
    (x.1 = .low → x.2.1 = 2#4 ∧ x.2.2.1 = 3#4) ∧ (x.1 = .high → x.2.1 = 4#4 ∧ x.2.2.1 = 5#4) ∧
    replyAfter 0 (due (.setThresh x.1 0x1234#16) [.ok [], .err true x.2.2.2 0#4]) = .ok [] ∧
    replyAfter 1 (due (.setThresh x.1 0x1234#16) [.ok [], .err true x.2.2.2 0#4]) = .err true x.2.2.2 0#4 := by
  intro x hx
  obtain ⟨h1, h2⟩ := (by decide : ∀ x ∈ [(ThreshPair.low, 2#4, 3#4, false), (.high, 4#4, 5#4, true)],
    (x.1 = .low → x.2.1 = 2#4 ∧ x.2.2.1 = 3#4) ∧ (x.1 = .high → x.2.1 = 4#4 ∧ x.2.2.1 = 5#4)) x hx
  exact ⟨rfl, rfl, h1, h2, rfl, rfl⟩

theorem test_witness_WriteBackUsesMirrorOnly : rmwOf (.setGain 1#16) = some (1#4, 0x0B#8, 0x10#8) ∧
    (Instr.setGain 1#16).wellFormed = true ∧
    (∀ x ∈ (beforeWriteBack (.setGain 1#16) 1#4 2#8 [.ok []]).trace, x.answer ≠ .err) ∧
    (beforeWriteBack (.setGain 1#16) 1#4 2#8 [.ok []]).seq = 2#2 ∧
    nextReply (beforeWriteBack (.setGain 1#16) 1#4 2#8 [.ok []]) = .ok [] := by decide

theorem test_witness_FailedWriteIsADraw :
    (∃ s, (Instr.writeReg 0xF#4 0xFF#16).wellFormed = true ∧ (∀ x ∈ s.trace, x.answer ≠ .err) ∧
      nextStore (.writeReg 0xF#4 0xFF#16) s = some (0xF#4, 0xFF#8) ∧ s.replies = .err true false 0#4 :: []) ∧
    (∃ s t, s.replies = .err true false 0#4 :: [] ∧ exec .readTiming s = .next t ∧
      t.trace = s.trace ++ [⟨.write1 0x81#8, .err⟩]) ∧
    (∃ s t, s.replies = .err true false 0#4 :: [] ∧ exec .clearInt s = .next t ∧
      t.trace = s.trace ++ [⟨.write1 0xE0#8, .err⟩]) :=
  ⟨⟨due (.writeReg 0xF#4 0xFF#16) [.err true false 0#4], by decide, by decide, by decide, rfl⟩,
    ⟨due .readTiming [.err true false 0#4], _, rfl, rfl, rfl⟩, ⟨due .clearInt [.err true false 0#4], _, rfl, rfl, rfl⟩⟩

/-- A silence of two steps. -/
theorem test_witness_SilentTransportKeepsBusy : ∃ s t, s.busy = true ∧ (∀ e ∈ s.host, e ≠ .reset) ∧ step s = .next t ∧
    t.inFlight ≠ none ∧ ∀ k, k < 2 → replyAfter k t = .silent := by
  refine ⟨due .clearInt [.silent, .silent, .silent], _, rfl, by decide, rfl, by decide, ?_⟩
  decide

theorem test_witness_SeqCountsOkTransactions :
    (∃ s t, s.busy = false ∧ s.host = [.request 0xA0000000#32] ∧ step s = .next t) ∧
    (∃ s t, s.busy = true ∧ noResetNow s ∧ step s = .next t ∧ t.trace = s.trace ++ [⟨.write1 0xE0#8, .ok []⟩]) ∧
    (∃ s t, s.busy = true ∧ noResetNow s ∧ step s = .next t ∧ s.trace = [] ∧ t.trace = [⟨.write1 0xE0#8, .err⟩] ∧
      ∀ f b, t.trace ≠ s.trace ++ [⟨f, .ok b⟩]) := by
  refine ⟨⟨idle [.request 0xA0000000#32], _, rfl, rfl, rfl⟩, ⟨due .clearInt [.ok []], _, rfl, ?_, rfl, rfl⟩,
    ⟨due .clearInt [.err false false 0#4], _, rfl, ?_, rfl, rfl, rfl, ?_⟩⟩
  · intro _ h; cases h
  · intro _ h; cases h
  · intro f b h; cases h

theorem test_witness_ExecFrame :
    (∃ s t, exec .readTiming s = .next t ∧ rmwOf .readTiming = none ∧ t.rspValid = false) ∧
    (∃ s t, exec .readTiming s = .next t ∧ t.rspValid = true) :=
  ⟨⟨due .readTiming [.ok []], _, rfl, rfl, rfl⟩, ⟨beforeResponse .readTiming 1#4 [0#8], _, rfl, rfl⟩⟩

theorem test_witness_DeviceFrame :
    (∃ s t, exec (.setGain 1#16) s = .next t ∧ nextStore (.setGain 1#16) s = some (1#4, 0x12#8)) ∧
    (∃ s t, exec (.setGain 1#16) s = .next t ∧ nextStore (.setGain 1#16) s = none) :=
  ⟨⟨beforeWriteBack (.setGain 1#16) 1#4 2#8 [.ok []], _, rfl, rfl⟩, ⟨due (.setGain 1#16) [.ok []], _, rfl, rfl⟩⟩

theorem test_witness_OnlyListedFrames :
    (∃ s t, exec (.setPersist 15#16) s = .next t ∧ t.trace = s.trace ++ [⟨.write2 0x86#8 0x0F#8, .ok []⟩]) ∧
    (∃ s t, exec .clearInt s = .next t ∧ t.trace = s.trace ++ [⟨.write1 0xE0#8, .ok []⟩]) ∧
    (∃ s t, exec (.readReg 2#4 3#4) s = .next t ∧ t.trace = s.trace ++ [⟨.read 3, .err⟩]) :=
  ⟨⟨beforeWriteBack (.setPersist 15#16) 6#4 0#8 [.ok []], _, rfl, rfl⟩, ⟨due .clearInt [.ok []], _, rfl, rfl⟩,
    ⟨later (.readReg 2#4 3#4) 1#2 0#8 [⟨.write1 0x82#8, .ok []⟩] [.ok []], _, rfl, rfl⟩⟩

theorem test_witness_StatusIsNeverRead : ∃ s t, step s = .next t ∧ t.rspValid = true :=
  ⟨later .clearInt 1#2 0#8 [⟨.write1 0xE0#8, .ok []⟩] [], _, rfl, rfl⟩

/-- Three replies, the last of them a failure; a request behind. -/
theorem test_witness_AnswersWithinFiveSteps :
    ∃ s : State, s.busy = false ∧ s.host = .request 0x40000001#32 :: [.request 0#32] ∧
      (∀ e ∈ [HostEvent.request 0#32], e ≠ .reset) ∧ ∀ k, k < 3 → replyAfter k s ≠ .silent :=
  ⟨{ idle [.request 0x40000001#32, .request 0#32] with replies := [.ok [], .ok [2#8], .err true true 0#4] }, by decide, by decide,
    by decide, by decide⟩

/-- One step of each kind, the transaction it completes and its answer. -/
theorem test_witness_SelectionFrame :
    (∃ s t, exec .clearInt s = .next t ∧ t.trace = s.trace) ∧
    (∃ s t, exec (.readReg 0xF#4 4#4) s = .next t ∧ t.trace = s.trace ++ [⟨.read 4, .err⟩]) ∧
    (∃ s t, exec (.readReg 0xF#4 4#4) s = .next t ∧ t.trace = s.trace ++ [⟨.write1 (cmd 0xF#4), .ok []⟩]) ∧
    (∃ s t, exec (.readReg 0xF#4 4#4) s = .next t ∧ t.trace = s.trace ++ [⟨.write1 (cmd 0xF#4), .err⟩]) ∧
    (∃ s t, exec .clearInt s = .next t ∧ t.trace = s.trace ++ [⟨.write1 0xE0#8, .ok []⟩]) ∧
    (∃ s t, exec (.writeReg 0xF#4 0xFF#16) s = .next t ∧ t.trace = s.trace ++ [⟨.write2 (cmd 0xF#4) 0xFF#8, .ok []⟩]) ∧
    (∃ s t, exec (.writeReg 0xF#4 0xFF#16) s = .next t ∧ t.trace = s.trace ++ [⟨.write2 (cmd 0xF#4) 0xFF#8, .err⟩]) :=
  ⟨⟨due .clearInt [.silent], _, rfl, rfl⟩,
    ⟨later (.readReg 0xF#4 4#4) 1#2 0#8 [⟨.write1 (cmd 0xF#4), .ok []⟩] [.ok [0#8]], _, rfl, rfl⟩,
    ⟨due (.readReg 0xF#4 4#4) [.ok []], _, rfl, rfl⟩, ⟨due (.readReg 0xF#4 4#4) [.err true false 0#4], _, rfl, rfl⟩,
    ⟨due .clearInt [.ok []], _, rfl, rfl⟩, ⟨due (.writeReg 0xF#4 0xFF#16) [.ok []], _, rfl, rfl⟩,
    ⟨due (.writeReg 0xF#4 0xFF#16) [.err true false 0#4], _, rfl, rfl⟩⟩

/-- Two states that only the device's side tells apart, and a step of the first. -/
theorem test_witness_BlockCannotSeeDevice : ∃ s1 s2 t1, s1 ≠ s2 ∧ blockSide s1 = blockSide s2 ∧ step s1 = .next t1 :=
  ⟨due (.setPower 1#16) [.err true true 0#4],
    { due (.setPower 1#16) [.err false false 0#4] with device := [(0, 3#8)], select := 7#4 }, _, by decide, by decide, rfl⟩

/-- A failing RMW with a reply left over, a rejected word and a rejected argument. -/
theorem test_witness_MachineRefinesPseudocode :
    ∀ x ∈ [(0x40000001#32, [Reply.ok [], .silent, .ok [2#8], .err true false 0#4]), (0xE0000000#32, []), (0x50000004#32, [.ok []])],
      ({ idle [.request x.1] with replies := x.2 ++ [.silent] } : State).busy = false ∧
      ({ idle [.request x.1] with replies := x.2 ++ [.silent] } : State).host = [.request x.1] ∧
      ({ idle [.request x.1] with replies := x.2 ++ [.silent] } : State).replies = x.2 ++ [.silent] ∧
      (execute x.1 x.2).isSome = true := by decide

end Sys2Proof.Tests
end

section
/-! PROOFS. The block's side of the machine (spec/00_scope.md R16, spec/10_state.md R46, spec/20_memory.md R75, R77): what
each shared operation leaves of `blockSide` depends on `blockSide` alone. The idea: hiding the device's side before an
operation changes nothing that is left once it is hidden after it. -/

namespace Sys2Proof.Machine

/-! ### What blockSide keeps -/

@[simp] theorem blockSide_req (s : State) : (blockSide s).req = s.req := rfl

@[simp] theorem blockSide_busy (s : State) : (blockSide s).busy = s.busy := rfl

@[simp] theorem blockSide_seq (s : State) : (blockSide s).seq = s.seq := rfl

@[simp] theorem blockSide_mirror (s : State) : (blockSide s).mirror = s.mirror := rfl

@[simp] theorem blockSide_status (s : State) : (blockSide s).status = s.status := rfl

@[simp] theorem blockSide_result (s : State) : (blockSide s).result = s.result := rfl

@[simp] theorem blockSide_rspValid (s : State) : (blockSide s).rspValid = s.rspValid := rfl

@[simp] theorem blockSide_inFlight (s : State) : (blockSide s).inFlight = s.inFlight := rfl

@[simp] theorem blockSide_trace (s : State) : (blockSide s).trace = s.trace := rfl

@[simp] theorem blockSide_host (s : State) : (blockSide s).host = s.host := rfl

@[simp] theorem blockSide_draws (s : State) : (blockSide s).draws = s.draws := rfl

@[simp] theorem blockSide_replies (s : State) : (blockSide s).replies = s.replies.map visibleReply := rfl

@[simp] theorem visibleReply_visibleReply (r : Reply) : visibleReply (visibleReply r) = visibleReply r := by
  cases r <;> rfl

@[simp] theorem blockSide_blockSide (s : State) : blockSide (blockSide s) = blockSide s := by
  simp [blockSide, Function.comp_def]

/-! ### The transport -/

/-- The answer the block takes does not depend on what the device took of a failed frame (R77). -/
@[simp] theorem judge_visibleReply (f : Frame) (r : Reply) : judge f (visibleReply r) = judge f r := by
  cases r <;> cases f <;> rfl

/-- The next reply looks the same from the block's side, listed or drawn from `Config.transport`. -/
theorem visibleReply_nextReply_blockSide (s : State) :
    visibleReply (nextReply (blockSide s)) = visibleReply (nextReply s) := by
  rcases h : s.replies with _ | ⟨r, rs⟩ <;> simp [nextReply, h]

/-- So the block takes the same answer. -/
@[simp] theorem judge_nextReply_blockSide (f : Frame) (s : State) :
    judge f (nextReply (blockSide s)) = judge f (nextReply s) := by
  rw [← judge_visibleReply, visibleReply_nextReply_blockSide, judge_visibleReply]

theorem takeReply_blockSide (s : State) : takeReply (blockSide s) = blockSide (takeReply s) := by
  rcases h : s.replies with _ | ⟨r, rs⟩ <;> simp [takeReply, blockSide, h]

/-- All that a frame leaves at the device is behind the transport. -/
@[simp] theorem blockSide_deviceTakes (f : Frame) (r : Reply) (s : State) :
    blockSide (deviceTakes f r s) = blockSide s := by
  cases f <;> rfl

/-- The block's side of a transaction step, by the answer the block takes. -/
theorem blockSide_transact (a : Action) (s : State) :
    blockSide (transact a (blockSide s)) = blockSide (transact a s) := by
  have hj := judge_nextReply_blockSide a.frame s
  rcases h : judge a.frame (nextReply s) with _ | (bytes | _) <;> rw [h] at hj
  · rw [transact_silent hj, transact_silent h, takeReply_blockSide]; simp [blockSide]
  · rw [transact_ok hj, transact_ok h, takeReply_blockSide]; simp [blockSide]
  · rw [transact_err hj, transact_err h, takeReply_blockSide]; simp [blockSide]

/-! ### What an operation reads, and how it ends -/

@[simp] theorem blockSide_respond_blockSide (code : Code) (r : Word) (s : State) :
    blockSide (respond code r (blockSide s)) = blockSide (respond code r s) := by
  simp [respond, blockSide, Function.comp_def]

@[simp] theorem blockSide_abort_blockSide (code : Code) (s : State) :
    blockSide (abort code (blockSide s)) = blockSide (abort code s) :=
  blockSide_respond_blockSide code 0#32 s

@[simp] theorem failed_blockSide (s : State) : failed (blockSide s) = failed s := rfl

/-- A script depends on the state through MIRROR alone. -/
theorem scriptOf_blockSide (i : Instr) (s : State) : scriptOf i (blockSide s) = scriptOf i s := by
  cases i <;> rfl

/-- A RESULT depends on the state through the trace alone. -/
theorem resultOf_blockSide (i : Instr) (s : State) : resultOf i (blockSide s) = resultOf i s := by
  cases i <;> rfl

/-! ### The host and the reset -/

theorem hostWaits_blockSide (s : State) : hostWaits (blockSide s) = blockSide (hostWaits s) := by
  unfold hostWaits
  rw [blockSide_host]
  split <;> rfl

theorem idleStep_blockSide (s : State) : idleStep (blockSide s) = blockSide (idleStep s) := by
  unfold idleStep
  rw [blockSide_host]
  split <;> rfl

/-- A transaction abandoned at a reset uses up a reply; whatever its outcome, only the device sees it (R221). -/
theorem blockSide_abandonInFlight (s : State) :
    blockSide (abandonInFlight (blockSide s)) = blockSide (abandonInFlight s) := by
  unfold abandonInFlight
  rw [blockSide_inFlight]
  split
  · rw [blockSide_deviceTakes, blockSide_deviceTakes, takeReply_blockSide, blockSide_blockSide]
  · exact blockSide_blockSide s

/-- The part of a reset inside the block: its registers and the trace (R220). -/
def resetRegisters (s : State) : State :=
  { s with
    req := State.reset.req, busy := State.reset.busy, seq := State.reset.seq, mirror := State.reset.mirror
    status := State.reset.status, result := State.reset.result, rspValid := false, inFlight := none, trace := [] }

theorem blockReset_eq (s : State) : blockReset s = resetRegisters (abandonInFlight s) := rfl

theorem blockSide_resetRegisters (s : State) : blockSide (resetRegisters s) = resetRegisters (blockSide s) := rfl

theorem blockSide_blockReset (s : State) : blockSide (blockReset (blockSide s)) = blockSide (blockReset s) := by
  rw [blockReset_eq, blockReset_eq, blockSide_resetRegisters, blockSide_abandonInFlight, ← blockSide_resetRegisters]

/-! ### Outcomes of operations -/

/-- An outcome as the block's side shows it. -/
def blockSideOutcome : Host.Outcome State Fault Refusal → Host.Outcome State Fault Refusal
  | .next s => .next (blockSide s)
  | .fault r => .fault r
  | .refused r => .refused r

@[simp] theorem blockSideOutcome_next (s : State) : blockSideOutcome (.next s) = .next (blockSide s) := rfl

theorem blockSideOutcome_eq_next {o : Host.Outcome State Fault Refusal} {u : State} :
    blockSideOutcome o = .next u ↔ ∃ t, o = .next t ∧ blockSide t = u := by
  cases o <;> simp [blockSideOutcome]

/-- The frame of an operation, end by end (R110, R197). -/
theorem blockSideOutcome_operate (legal : Bool) (script : List Action) (code : Code) (r : Word) (s : State) :
    blockSideOutcome (operate legal script code r (blockSide s)) = blockSideOutcome (operate legal script code r s) := by
  cases legal with
  | false => simp [operate_illegal]
  | true =>
    by_cases hf : failed s = true
    · simp [operate_failed, hf]
    · have hf : failed s = false := by simpa using hf
      rcases ha : script[s.seq.toNat]? with _ | a
      · rw [operate_respond code r hf ha, operate_respond (s := blockSide s) code r hf ha]
        simp
      · rw [operate_transact code r hf ha, operate_transact (s := blockSide s) code r hf ha]
        simp [blockSide_transact]

theorem blockSideOutcome_exec (i : Instr) (s : State) :
    blockSideOutcome (exec i (blockSide s)) = blockSideOutcome (exec i s) := by
  rw [exec_eq, exec_eq, scriptOf_blockSide, resultOf_blockSide, blockSideOutcome_operate]

theorem blockSideOutcome_busyStep (s : State) :
    blockSideOutcome (busyStep (blockSide s)) = blockSideOutcome (busyStep s) := by
  unfold busyStep
  rw [blockSide_req]
  split
  · exact blockSideOutcome_exec _ s
  · simp

/-! ### A step, by what is due -/

theorem step_of_reset {s : State} {rest : List HostEvent} (h : s.host = .reset :: rest) :
    step s = .next (blockReset { s with host := rest }) := by
  unfold step; rw [h]

theorem step_of_noResetNow {s : State} (h : noResetNow s) :
    step s = if s.busy = true then busyStep (hostWaits s) else .next (idleStep s) := by
  unfold step
  split
  · next rest hr => exact absurd hr (h rest)
  · rfl

/-- A step of the machine commutes with hiding the device's side: a reset, a busy block's step, an idle block's. -/
theorem blockSideOutcome_step (s : State) : blockSideOutcome (step (blockSide s)) = blockSideOutcome (step s) := by
  by_cases h : noResetNow s
  · rw [step_of_noResetNow h, step_of_noResetNow (s := blockSide s) h, blockSide_busy]
    split
    · rw [hostWaits_blockSide, blockSideOutcome_busyStep]
    · rw [idleStep_blockSide, blockSideOutcome_next, blockSide_blockSide, blockSideOutcome_next]
  · obtain ⟨rest, hr⟩ : ∃ rest, s.host = .reset :: rest := by simpa [noResetNow] using h
    rw [step_of_reset hr, step_of_reset (s := blockSide s) hr]
    exact congrArg Host.Outcome.next (blockSide_blockReset { s with host := rest })

/-- Settles O51: the two states have one block's side, and what a step shows of its outcome is a function of that. -/
theorem blockCannotSeeDevice : Obligations.BlockCannotSeeDevice := by
  intro s1 s2 t1 hs h1
  have key : blockSideOutcome (step s2) = .next (blockSide t1) := by
    rw [← blockSideOutcome_step, ← hs, blockSideOutcome_step, h1, blockSideOutcome_next]
  obtain ⟨t2, h2, ht⟩ := blockSideOutcome_eq_next.mp key
  exact ⟨t2, h2, ht.symm⟩

end Sys2Proof.Machine
end

section
/-! PROOFS. What one step can do, said once: a reset, a busy block's abort, transaction or response, an idle block's
acceptance or wait (spec/30_encoding.md R80, spec/70_reset_and_hazards.md R231); and a transaction by what it adds to the
trace. -/

namespace Sys2Proof.Machine

/-! ### The host -/

theorem noResetNow_of_presented {s : State} {w : Word} (h : presented s = some w) : noResetNow s := by
  intro rest hr
  simp [presented, hr] at h

/-- An idle block accepts what is presented, held or only offered (R80, R227). -/
theorem idleStep_of_presented {s : State} {w : Word} (h : presented s = some w) :
    ∃ rest, idleStep s = accept w { s with host := rest } := by
  rcases hh : s.host with _ | ⟨_ | _ | _ | _, rest⟩ <;> simp [presented, hh] at h
  · subst h; exact ⟨rest, by simp [idleStep, hh]⟩
  · subst h; exact ⟨rest, by simp [idleStep, hh]⟩

/-- An idle block to which nothing is presented waits. -/
theorem idleStep_of_not_presented {s : State} (h : presented s = none) :
    ∃ rest, idleStep s = { s with host := rest, rspValid := false } := by
  rcases hh : s.host with _ | ⟨_ | _ | _ | _, rest⟩ <;> simp [presented, hh] at h
  · exact ⟨s.host, by simp [idleStep, hh]⟩
  · exact ⟨rest, by simp [idleStep, hh]⟩
  · exact ⟨s.host, by simp [idleStep, hh]⟩

theorem hostWaits_eq (s : State) : ∃ rest, hostWaits s = { s with host := rest } := by
  unfold hostWaits
  split
  · exact ⟨_, rfl⟩
  · exact ⟨s.host, rfl⟩

/-! ### The step -/

theorem busyStep_op {s : State} {i : Instr} (h : decode s.req = .op i) : busyStep s = exec i s := by
  unfold busyStep; rw [h]

theorem busyStep_illegal {s : State} {why : IllegalReason} (h : decode s.req = .illegal why) :
    busyStep s = .next (abort .illegalRequest s) := by
  unfold busyStep; rw [h]

/-- What a busy block's step can answer (R110, R197). -/
theorem busyStep_cases {s t : State} (h : busyStep s = .next t) :
    (∃ code, t = abort code s) ∨
    (∃ i a, i.wellFormed = true ∧ failed s = false ∧ (scriptOf i s)[s.seq.toNat]? = some a ∧ t = transact a s) ∨
    (∃ i, t = respond (codeOf i) (resultOf i s) s) := by
  cases hd : decode s.req with
  | op i =>
    rw [busyStep_op hd] at h
    obtain ⟨-, rfl⟩ | ⟨-, -, rfl⟩ | ⟨hw, hf, a, ha, rfl⟩ | ⟨-, -, -, rfl⟩ := exec_cases h
    · exact .inl ⟨_, rfl⟩
    · exact .inl ⟨_, rfl⟩
    · exact .inr (.inl ⟨i, a, hw, hf, ha, rfl⟩)
    · exact .inr (.inr ⟨i, rfl⟩)
  | illegal why =>
    rw [busyStep_illegal hd] at h
    exact .inl ⟨_, by cases h; rfl⟩

/-- A step of a meaning is a response or a transaction of its script. -/
theorem exec_respond_or_transact {i : Instr} {s t : State} (h : exec i s = .next t) :
    (∃ code r, t = respond code r s) ∨ (∃ a ∈ scriptOf i s, t = transact a s) := by
  obtain ⟨-, rfl⟩ | ⟨-, -, rfl⟩ | ⟨-, -, a, ha, rfl⟩ | ⟨-, -, -, rfl⟩ := exec_cases h
  · exact .inl ⟨_, _, rfl⟩
  · exact .inl ⟨_, _, rfl⟩
  · exact .inr ⟨a, List.mem_of_getElem? ha, rfl⟩
  · exact .inl ⟨_, _, rfl⟩

theorem noResetNow_or_reset (s : State) : noResetNow s ∨ ∃ rest, s.host = .reset :: rest := by
  by_cases hn : noResetNow s
  · exact .inl hn
  · exact .inr (by simpa [noResetNow] using hn)

theorem step_of_busy {s : State} (hn : noResetNow s) (hb : s.busy = true) : step s = busyStep (hostWaits s) := by
  rw [step_of_noResetNow hn, if_pos hb]

theorem step_of_idle {s : State} (hn : noResetNow s) (hb : s.busy = false) : step s = .next (idleStep s) := by
  rw [step_of_noResetNow hn, hb]; rfl

theorem step_of_presented {s : State} {w : Word} (hb : s.busy = false) (h : presented s = some w) :
    ∃ rest, step s = .next (accept w { s with host := rest }) := by
  obtain ⟨rest, hi⟩ := idleStep_of_presented h
  exact ⟨rest, by rw [step_of_idle (noResetNow_of_presented h) hb, hi]⟩

/-- The three kinds of step: a reset comes first, else a busy block works, else an idle one looks at its port. -/
theorem step_cases {s t : State} (h : step s = .next t) :
    (∃ rest, s.host = .reset :: rest ∧ t = blockReset { s with host := rest }) ∨
    (noResetNow s ∧ s.busy = true ∧ busyStep (hostWaits s) = .next t) ∨
    (noResetNow s ∧ s.busy = false ∧ t = idleStep s) := by
  obtain hn | ⟨rest, hr⟩ := noResetNow_or_reset s
  · cases hb : s.busy with
    | true =>
      rw [step_of_busy hn hb] at h
      exact .inr (.inl ⟨hn, rfl, h⟩)
    | false =>
      rw [step_of_idle hn hb] at h
      exact .inr (.inr ⟨hn, rfl, by cases h; rfl⟩)
  · rw [step_of_reset hr] at h
    exact .inl ⟨rest, hr, by cases h; rfl⟩

/-! ### A transaction by what it adds to the trace -/

/-- The transaction that is due is one of the first three (spec/10_state.md R21). -/
theorem seq_lt_of_due {i : Instr} {s : State} {a : Action} (h : (scriptOf i s)[s.seq.toNat]? = some a) :
    s.seq.toNat < 3 := by
  obtain ⟨hlt, -⟩ := List.getElem?_eq_some_iff.mp h
  exact Nat.lt_of_lt_of_le hlt (scriptOf_length i s)

/-- So counting it does not wrap. -/
theorem toNat_seq_succ {q : BitVec 2} (h : q.toNat < 3) : (q + 1#2).toNat = q.toNat + 1 := by
  simp only [BitVec.toNat_add, BitVec.toNat_ofNat]
  omega

@[simp] theorem answeredOk_ok (f : Frame) (bytes : List Byte) : answeredOk ⟨f, .ok bytes⟩ = true := by
  simp [answeredOk]

@[simp] theorem answeredOk_err (f : Frame) : answeredOk ⟨f, .err⟩ = false := by
  simp [answeredOk]

/-- Only an Ok read of the right count is judged Ok (R61). -/
theorem countRight_of_judge {f : Frame} {r : Reply} {ans : Answer} (h : judge f r = some ans) :
    countRight ⟨f, ans⟩ = true := by
  cases f <;> cases ans <;> simp only [countRight, decide_eq_true_eq]
  exact judge_read_length h

/-- A transaction step waits and leaves the trace, or adds one transaction to it, which SEQ counts if it is Ok. -/
theorem transact_trace_cases (a : Action) (s : State) :
    (judge a.frame (nextReply s) = none ∧ (transact a s).trace = s.trace ∧ (transact a s).seq = s.seq ∧
      (transact a s).select = s.select) ∨
    (∃ ans, judge a.frame (nextReply s) = some ans ∧ (transact a s).trace = s.trace ++ [⟨a.frame, ans⟩] ∧
      (transact a s).inFlight = none ∧
      (transact a s).seq = if answeredOk ⟨a.frame, ans⟩ = true then s.seq + 1#2 else s.seq) := by
  obtain ⟨hj, -, htr, hseq, -, -, hsel⟩ | ⟨hj, hfl, htr, hseq, -⟩ | ⟨bytes, hj, hfl, htr, hseq, -⟩ :=
    transact_cases a s
  · exact .inl ⟨hj, htr, hseq, hsel⟩
  · exact .inr ⟨.err, hj, htr, hfl, by simp [hseq]⟩
  · exact .inr ⟨.ok bytes, hj, htr, hfl, by simp [hseq]⟩

end Sys2Proof.Machine
end

section
/-! PROOFS. The machine's invariant: it holds at reset, and each operation a step is made of keeps it. -/

namespace Sys2Proof.Machine

/-- STATUS holds 0 to 4 only (spec/60_exceptions.md R191). -/
theorem statusBits_le_four (code : Code) : (statusBits code).toNat ≤ 4 := by cases code <;> decide

/-- A transaction abandoned at a reset leaves the record canonical, whatever its outcome (R221). -/
theorem abandonInFlight_wf (s : State) (h : Memory.wf s.device = true) :
    Memory.wf (abandonInFlight s).device = true := by
  unfold abandonInFlight
  split
  · exact deviceTakes_wf _ _ _ (by simpa using h)
  · exact h

namespace MachineInv

variable {s : State}

/-- The invariant does not speak of the host. -/
theorem withHost (hs : MachineInv s) (rest : List HostEvent) : MachineInv { s with host := rest } := { hs with }

theorem hostWaits (hs : MachineInv s) : MachineInv (hostWaits s) := by
  obtain ⟨rest, h⟩ := hostWaits_eq s
  exact h ▸ hs.withHost rest

theorem takeReply (hs : MachineInv s) : MachineInv (takeReply s) := by
  unfold Machine.takeReply
  split <;> exact { hs with }

/-- An empty trace with SEQ 0 and nothing in flight meets the invariant's clauses on transactions. -/
theorem of_trace_nil (hdev : Memory.wf s.device = true) (hst : s.status.toNat ≤ 4)
    (hres : s.status ≠ 0#3 → s.result = 0#32) (hrsp : s.rspValid = false) (hfl : s.inFlight = none)
    (htr : s.trace = []) (hseq : s.seq = 0#2) : MachineInv s where
  deviceCanonical := hdev
  statusProduced := hst
  resultZero := hres
  responseAtEnd := by simp [hrsp]
  flightInOperation := by simp [hfl]
  flightEmittable := by simp [hfl]
  traceEmittable := by simp [htr]
  readsCounted := by simp [htr]
  failureLast := by simp [htr]
  seqCounts := by simp [htr, hseq]
  traceShort := by simp [htr]

theorem accept (hs : MachineInv s) (w : Word) : MachineInv (accept w s) :=
  of_trace_nil hs.deviceCanonical hs.statusProduced hs.resultZero rfl rfl rfl rfl

theorem idleStep (hs : MachineInv s) : MachineInv (idleStep s) := by
  cases hp : presented s with
  | some w =>
    obtain ⟨rest, h⟩ := idleStep_of_presented hp
    exact h ▸ (hs.withHost rest).accept w
  | none =>
    obtain ⟨rest, h⟩ := idleStep_of_not_presented hp
    exact h ▸ { hs with responseAtEnd := by simp }

theorem blockReset (hs : MachineInv s) : MachineInv (blockReset s) :=
  of_trace_nil (abandonInFlight_wf s hs.deviceCanonical) (by simp) (by simp) rfl rfl rfl rfl

theorem respond (hs : MachineInv s) {code : Code} {r : Word} (hr : code ≠ .ok → r = 0#32) :
    MachineInv (respond code r s) :=
  { hs with
    statusProduced := statusBits_le_four code
    resultZero := fun h => hr (by rintro rfl; exact h rfl)
    responseAtEnd := by simp
    flightInOperation := by simp
    flightEmittable := by simp
    seqCounts := by simp }

/-- Where the last transaction has not failed, none has. -/
theorem answeredOk_of_not_failed (hs : MachineInv s) (hf : failed s = false) : ∀ x ∈ s.trace, answeredOk x = true := by
  rcases List.eq_nil_or_concat' s.trace with hnil | ⟨pre, ⟨f, ans⟩, hx⟩
  · simp [hnil]
  · have hlast : ans ≠ .err := by
      rintro rfl
      simp [(failed_iff s).mpr ⟨pre, f, hx⟩] at hf
    have hpre := hs.failureLast
    rw [hx, List.dropLast_concat] at hpre
    rw [hx, List.forall_mem_append, List.forall_mem_singleton]
    exact ⟨hpre, by simpa [answeredOk] using hlast⟩

/-- So SEQ is the length of the trace. -/
theorem seq_eq_length (hs : MachineInv s) (hb : s.busy = true) (hf : failed s = false) :
    s.seq.toNat = s.trace.length := by
  rw [hs.seqCounts hb, List.countP_eq_length]
  exact hs.answeredOk_of_not_failed hf

/-- A transaction the block may emit, after none has failed and at most two have been completed. -/
theorem transact (hs : MachineInv s) (hb : s.busy = true) (hf : failed s = false) (hlt : s.seq.toNat < 3) {a : Action}
    (ha : emittable a.frame = true) : MachineInv (transact a s) := by
  have hlen := hs.seq_eq_length hb hf
  obtain ⟨hj, -⟩ | ⟨ans, hj, htr, hfl, hseq⟩ := transact_trace_cases a s
  · rw [transact_silent hj]
    exact
      { hs.takeReply with
        responseAtEnd := by simp
        flightInOperation := by simp [hb]
        flightEmittable := by simpa using ha }
  · have hok := hs.answeredOk_of_not_failed hf
    exact
      { deviceCanonical := transact_wf a s hs.deviceCanonical
        statusProduced := by simpa using hs.statusProduced
        resultZero := by simpa using hs.resultZero
        responseAtEnd := by simp
        flightInOperation := by simp [hb]
        flightEmittable := by simp [hfl]
        traceEmittable := by
          rw [htr, List.forall_mem_append, List.forall_mem_singleton]
          exact ⟨hs.traceEmittable, ha⟩
        readsCounted := by
          rw [htr, List.forall_mem_append, List.forall_mem_singleton]
          exact ⟨hs.readsCounted, countRight_of_judge hj⟩
        failureLast := by
          rw [htr, List.dropLast_concat]
          exact hok
        seqCounts := by
          intro _
          rw [htr, hseq, List.countP_append, ← hs.seqCounts hb, List.countP_singleton]
          split
          · exact toNat_seq_succ hlt
          · rfl
        traceShort := by
          rw [htr, List.length_append, List.length_singleton]
          omega }

end MachineInv

/-- Settles O12. -/
theorem resetMeetsInv : Obligations.ResetMeetsInv :=
  MachineInv.of_trace_nil Memory.wf_nil (by decide) (fun _ => rfl) rfl rfl rfl rfl

/-- An operation that ends with another code than Ok has RESULT 0 (spec/30_encoding.md R94). -/
theorem resultOf_eq_zero {i : Instr} (s : State) (h : codeOf i ≠ .ok) : resultOf i s = 0#32 := by
  cases i with
  | setIntMode m => rfl
  | _ => exact absurd rfl h

theorem busyStep_keeps_inv {s t : State} (hs : MachineInv s) (hb : s.busy = true) (h : busyStep s = .next t) :
    MachineInv t := by
  obtain ⟨code, rfl⟩ | ⟨i, a, hw, hf, ha, rfl⟩ | ⟨i, rfl⟩ := busyStep_cases h
  · exact hs.respond fun _ => rfl
  · exact hs.transact hb hf (seq_lt_of_due ha) (scriptOf_emittable hw (List.mem_of_getElem? ha))
  · exact hs.respond (resultOf_eq_zero s)

/-- Settles O13: by the kind of step. -/
theorem stepKeepsInv : Obligations.StepKeepsInv := by
  intro s t hs h
  obtain ⟨rest, -, rfl⟩ | ⟨-, hb, h⟩ | ⟨-, -, rfl⟩ := step_cases h
  · exact (hs.withHost rest).blockReset
  · exact busyStep_keeps_inv hs.hostWaits (by simpa using hb) h
  · exact hs.idleStep

end Sys2Proof.Machine
end

section
/-! PROOFS. What the steps leave alone: SEQ but for Ok transactions (spec/10_state.md R25), and the fields that only a
response or an RMW writes (R26 to R28); and that after reset the block waits (R44). -/

namespace Sys2Proof.Machine

/-! ### After reset -/

/-- Settles O11: with nothing presented, the reset state's step is a reset or a wait; else it is the acceptance. -/
theorem resetLeavesIdle : Obligations.ResetLeavesIdle := by
  refine ⟨rfl, rfl, rfl, rfl, rfl, fun host hp => ?_, fun host w hp => ?_⟩
  · obtain hn | ⟨rest, hr⟩ := noResetNow_or_reset { State.reset with host := host }
    · obtain ⟨rest, hi⟩ := idleStep_of_not_presented hp
      exact ⟨_, by rw [step_of_idle hn rfl, hi], rfl, rfl, rfl, rfl, rfl, rfl⟩
    · exact ⟨_, step_of_reset hr, rfl, rfl, rfl, rfl, rfl, rfl⟩
  · obtain ⟨rest, hs⟩ := step_of_presented rfl hp
    exact ⟨_, hs, rfl, rfl, rfl⟩

/-! ### SEQ -/

/-- A busy block's step adds a transaction to the trace, or leaves the trace and SEQ. -/
theorem busyStep_trace_cases {s t : State} (h : busyStep s = .next t) :
    (t.trace = s.trace ∧ t.seq = s.seq) ∨
    (∃ x, t.trace = s.trace ++ [x] ∧ s.seq.toNat < 3 ∧ t.seq = if answeredOk x = true then s.seq + 1#2 else s.seq) := by
  obtain ⟨code, rfl⟩ | ⟨i, a, -, -, ha, rfl⟩ | ⟨i, rfl⟩ := busyStep_cases h
  · exact .inl ⟨rfl, rfl⟩
  · obtain ⟨-, htr, hseq, -⟩ | ⟨ans, -, htr, -, hseq⟩ := transact_trace_cases a s
    · exact .inl ⟨htr, hseq⟩
    · exact .inr ⟨_, htr, seq_lt_of_due ha, hseq⟩
  · exact .inl ⟨rfl, rfl⟩

/-- Settles O45: SEQ cannot wrap, since a transaction is due at SEQ 0, 1 and 2 only. -/
theorem seqCountsOkTransactions : Obligations.SeqCountsOkTransactions := by
  refine ⟨fun s t w rest hb hh h => ?_, fun s t hb hn h => ?_⟩
  · obtain ⟨rest', hs⟩ := step_of_presented (w := w) hb (by simp [presented, hh])
    rw [hs] at h
    cases h; rfl
  · rw [step_of_busy hn hb] at h
    have key := busyStep_trace_cases h
    simp only [hostWaits_trace, hostWaits_seq] at key
    obtain ⟨htr, hseq⟩ | ⟨⟨f, ans⟩, htr, hlt, hseq⟩ := key
    · exact ⟨by simp [htr], fun _ => hseq⟩
    · cases ans with
      | ok bytes =>
        rw [answeredOk_ok, if_pos rfl] at hseq
        exact ⟨fun _ => hseq ▸ toNat_seq_succ hlt, fun hno => absurd htr (hno f bytes)⟩
      | err => exact ⟨by simp [htr], fun _ => by simpa using hseq⟩

/-! ### The frame of every meaning -/

theorem not_loadsMirror_of_memRead {addr : RegAddr} {n : Nat} {a : Action} (ha : a ∈ memRead addr n) :
    a.loadsMirror = false := by
  simp only [memRead, List.mem_cons, List.not_mem_nil, or_false] at ha
  obtain rfl | rfl := ha <;> rfl

theorem not_loadsMirror_of_memWrite {addr : RegAddr} {v : Byte} {a : Action} (ha : a ∈ memWrite addr v) :
    a.loadsMirror = false := by
  obtain rfl := List.mem_singleton.mp ha
  rfl

/-- Only an operation of R91's table has a transaction that loads MIRROR (spec/10_state.md R26). -/
theorem not_loadsMirror_of_rmwOf {i : Instr} {s : State} {a : Action} (hi : rmwOf i = none) (ha : a ∈ scriptOf i s) :
    a.loadsMirror = false := by
  cases i with
  | readReg | readChipId | readChannels | readTiming => exact not_loadsMirror_of_memRead ha
  | writeReg | setPower => exact not_loadsMirror_of_memWrite ha
  | setThresh =>
    exact (List.mem_append.mp ha).elim not_loadsMirror_of_memWrite not_loadsMirror_of_memWrite
  | clearInt =>
    obtain rfl := List.mem_singleton.mp ha
    rfl
  | setGain | setInteg | setManual | setPersist | setIntMode => simp [rmwOf] at hi

theorem transact_mirror_of_not_loadsMirror {a : Action} (s : State) (ha : a.loadsMirror = false) :
    (transact a s).mirror = s.mirror := by
  obtain ⟨-, -, -, -, hm, -⟩ | ⟨-, -, -, -, hm⟩ | ⟨bytes, -, -, -, -, hm⟩ := transact_cases a s
  · exact hm
  · exact hm
  · simp [hm, mirrorAfter, ha]

/-- Settles O46: a response step and a transaction step each leave the other's fields. -/
theorem execFrame : Obligations.ExecFrame := by
  intro i s t h
  obtain ⟨code, r, rfl⟩ | ⟨a, ha, rfl⟩ := exec_respond_or_transact h
  · exact ⟨rfl, rfl, fun _ => rfl, by simp, fun _ => rfl⟩
  · have hmirror := fun hi => transact_mirror_of_not_loadsMirror s (not_loadsMirror_of_rmwOf hi ha)
    exact ⟨by simp, by simp, hmirror, by simp, by simp⟩

end Sys2Proof.Machine
end

section
/-! PROOFS. STATUS and RESULT are never read (spec/10_state.md R29): each operation a step is made of takes the same course
with another STATUS and RESULT put in, and only a response and a reset overwrite them. -/

namespace Sys2Proof.Machine

/-- The state with another STATUS and RESULT put in. -/
def putOutcome (st : BitVec 3) (r : Word) (s : State) : State := { s with status := st, result := r }

section PutOutcome

variable (st : BitVec 3) (r : Word) (s : State)

theorem hostWaits_putOutcome : hostWaits (putOutcome st r s) = putOutcome st r (hostWaits s) := by
  unfold hostWaits putOutcome
  simp only
  split <;> rfl

theorem takeReply_putOutcome : takeReply (putOutcome st r s) = putOutcome st r (takeReply s) := by
  unfold takeReply putOutcome
  simp only
  split <;> rfl

theorem deviceTakes_putOutcome (f : Frame) (rep : Reply) :
    deviceTakes f rep (putOutcome st r s) = putOutcome st r (deviceTakes f rep s) := by
  cases f <;> rfl

theorem transact_putOutcome (a : Action) : transact a (putOutcome st r s) = putOutcome st r (transact a s) := by
  have hn : nextReply (putOutcome st r s) = nextReply s := nextReply_congr rfl rfl
  rcases hj : judge a.frame (nextReply s) with _ | (bytes | _)
  · rw [transact_silent hj, transact_silent (hn ▸ hj), takeReply_putOutcome]; rfl
  · rw [transact_ok hj, transact_ok (hn ▸ hj), takeReply_putOutcome, hn, ← deviceTakes_putOutcome]; rfl
  · rw [transact_err hj, transact_err (hn ▸ hj), takeReply_putOutcome, hn, ← deviceTakes_putOutcome]; rfl

theorem scriptOf_putOutcome (i : Instr) : scriptOf i (putOutcome st r s) = scriptOf i s := by
  cases i <;> rfl

theorem resultOf_putOutcome (i : Instr) : resultOf i (putOutcome st r s) = resultOf i s := by
  cases i <;> rfl

theorem idleStep_putOutcome : idleStep (putOutcome st r s) = putOutcome st r (idleStep s) := by
  unfold idleStep putOutcome
  simp only
  split <;> rfl

theorem abandonInFlight_putOutcome :
    abandonInFlight (putOutcome st r s) = putOutcome st r (abandonInFlight s) := by
  have hn : nextReply (putOutcome st r s) = nextReply s := nextReply_congr rfl rfl
  unfold abandonInFlight
  rw [takeReply_putOutcome, hn, show (putOutcome st r s).inFlight = s.inFlight from rfl]
  split
  · exact deviceTakes_putOutcome st r _ _ _
  · rfl

/-- A reset overwrites both (spec/70_reset_and_hazards.md R220). -/
theorem blockReset_putOutcome : blockReset (putOutcome st r s) = blockReset s := by
  rw [blockReset_eq, abandonInFlight_putOutcome, blockReset_eq]
  rfl

end PutOutcome

theorem idleStep_rspValid (s : State) : (idleStep s).rspValid = false := by
  cases hp : presented s with
  | some w =>
    obtain ⟨rest, h⟩ := idleStep_of_presented hp
    rw [h]; rfl
  | none =>
    obtain ⟨rest, h⟩ := idleStep_of_not_presented hp
    rw [h]

/-- What `u` shows of `t` where another STATUS and RESULT were put in a step before: both kept as put in, or both
overwritten as in `t`, and overwritten at a response (spec/10_state.md R29). -/
def KeptOrOverwritten (st : BitVec 3) (r : Word) (t u : State) : Prop :=
  (u = t ∨ u = putOutcome st r t) ∧ (t.rspValid = true → u = t)

theorem KeptOrOverwritten.overwritten {st : BitVec 3} {r : Word} {t : State} : KeptOrOverwritten st r t t :=
  ⟨.inl rfl, fun _ => rfl⟩

theorem KeptOrOverwritten.kept {st : BitVec 3} {r : Word} {t : State} (h : t.rspValid = false) :
    KeptOrOverwritten st r t (putOutcome st r t) :=
  ⟨.inr rfl, by simp [h]⟩

/-- A meaning reads neither of the two: a transaction keeps what was put in, and an end overwrites it. -/
theorem exec_putOutcome (st : BitVec 3) (r : Word) {i : Instr} {s t : State} (h : exec i s = .next t) :
    ∃ u, exec i (putOutcome st r s) = .next u ∧ KeptOrOverwritten st r t u := by
  obtain ⟨hw, rfl⟩ | ⟨hw, hf, rfl⟩ | ⟨hw, hf, a, ha, rfl⟩ | ⟨hw, hf, ha, rfl⟩ := exec_cases h
  · exact ⟨_, exec_illegal _ hw, .overwritten⟩
  · exact ⟨_, exec_failed (s := putOutcome st r s) hw hf, .overwritten⟩
  · rw [← scriptOf_putOutcome st r] at ha
    refine ⟨_, exec_transact (s := putOutcome st r s) hw hf ha, ?_⟩
    rw [transact_putOutcome]
    exact .kept (transact_rspValid a s)
  · rw [← scriptOf_putOutcome st r] at ha
    refine ⟨_, exec_respond (s := putOutcome st r s) hw hf ha, ?_⟩
    rw [resultOf_putOutcome]
    exact .overwritten

theorem busyStep_putOutcome (st : BitVec 3) (r : Word) {s t : State} (h : busyStep s = .next t) :
    ∃ u, busyStep (putOutcome st r s) = .next u ∧ KeptOrOverwritten st r t u := by
  cases hd : decode s.req with
  | op i =>
    rw [busyStep_op hd] at h
    rw [busyStep_op (s := putOutcome st r s) hd]
    exact exec_putOutcome st r h
  | illegal why =>
    rw [busyStep_illegal hd] at h
    obtain rfl := Host.Outcome.next.inj h
    exact ⟨_, busyStep_illegal (s := putOutcome st r s) hd, .overwritten⟩

/-- Settles O49: a reset and a response overwrite both; acceptance, waiting and a transaction keep both. -/
theorem statusIsNeverRead : Obligations.StatusIsNeverRead := by
  intro s t st r h
  show ∃ u, step (putOutcome st r s) = .next u ∧ KeptOrOverwritten st r t u
  obtain ⟨rest, hr, rfl⟩ | ⟨hn, hb, h⟩ | ⟨hn, hb, rfl⟩ := step_cases h
  · refine ⟨_, step_of_reset (s := putOutcome st r s) hr, ?_⟩
    rw [show { putOutcome st r s with host := rest } = putOutcome st r { s with host := rest } from rfl,
      blockReset_putOutcome]
    exact .overwritten
  · rw [step_of_busy (s := putOutcome st r s) hn hb, hostWaits_putOutcome]
    exact busyStep_putOutcome st r h
  · rw [step_of_idle (s := putOutcome st r s) hn hb, idleStep_putOutcome]
    exact ⟨_, rfl, .kept (idleStep_rspValid s)⟩

end Sys2Proof.Machine
end

section
/-! PROOFS. The recorded selection (spec/10_state.md R46, spec/20_memory.md R77): only a completed transaction moves it, as
its frame and its reply say. -/

namespace Sys2Proof.Machine

/-- Only a reply that completes the transaction is judged Ok. -/
theorem eq_ok_of_judge {f : Frame} {rep : Reply} {bytes : List Byte} (h : judge f rep = some (.ok bytes)) :
    ∃ bs, rep = .ok bs := by
  cases rep with
  | silent => simp [judge] at h
  | err => simp [judge] at h
  | ok bs => exact ⟨bs, rfl⟩

/-- Only an answered frame moves the selection, and as `deviceTakes` says. -/
theorem transact_select {a : Action} {s : State} {ans : Answer} (h : judge a.frame (nextReply s) = some ans) :
    (transact a s).select = (deviceTakes a.frame (nextReply s) s).select := by
  have hsel : ∀ u : State, u.select = s.select →
      (deviceTakes a.frame (nextReply s) u).select = (deviceTakes a.frame (nextReply s) s).select := by
    intro u hu
    cases a.frame <;> simp [deviceTakes, hu]
  cases ans with
  | ok bytes => rw [transact_ok h]; exact hsel _ (takeReply_select s)
  | err => rw [transact_err h]; exact hsel _ (takeReply_select s)

/-- A step of a meaning that completes no transaction leaves the selection. -/
theorem exec_select_of_trace_eq {i : Instr} {s t : State} (h : exec i s = .next t) (ht : t.trace = s.trace) :
    t.select = s.select := by
  obtain ⟨code, r, rfl⟩ | ⟨a, -, rfl⟩ := exec_respond_or_transact h
  · rfl
  · obtain ⟨-, -, -, hsel⟩ | ⟨ans, -, htr, -⟩ := transact_trace_cases a s
    · exact hsel
    · simp [htr] at ht

/-- A step that completes a transaction leaves the selection its frame left at the device. -/
theorem exec_select_of_trace_append {i : Instr} {s t : State} {f : Frame} {ans : Answer} (h : exec i s = .next t)
    (ht : t.trace = s.trace ++ [⟨f, ans⟩]) :
    judge f (nextReply s) = some ans ∧ t.select = (deviceTakes f (nextReply s) s).select := by
  obtain ⟨code, r, rfl⟩ | ⟨a, -, rfl⟩ := exec_respond_or_transact h
  · simp at ht
  · obtain ⟨-, htr, -⟩ | ⟨ans', hj, htr, -⟩ := transact_trace_cases a s
    · simp [htr] at ht
    · obtain ⟨rfl, rfl⟩ : a.frame = f ∧ ans' = ans := by simpa [htr] using ht
      exact ⟨hj, transact_select hj⟩

theorem deviceTakes_select_register {f : Frame} {a : RegAddr} (hf : f = .write1 (cmd a) ∨ ∃ v, f = .write2 (cmd a) v)
    (rep : Reply) (s : State) : (deviceTakes f rep s).select = if tookCommand rep then a else s.select := by
  obtain rfl | ⟨v, rfl⟩ := hf <;> simp [deviceTakes]

/-- A register-select byte answered Ok selects its register, alone or before a data byte (spec/10_state.md R46). -/
theorem exec_select_of_register_ok {i : Instr} {s t : State} {f : Frame} {a : RegAddr} {bytes : List Byte}
    (hf : f = .write1 (cmd a) ∨ ∃ v, f = .write2 (cmd a) v) (h : exec i s = .next t)
    (ht : t.trace = s.trace ++ [⟨f, .ok bytes⟩]) : t.select = a := by
  obtain ⟨hj, hsel⟩ := exec_select_of_trace_append h ht
  obtain ⟨bs, hrep⟩ := eq_ok_of_judge hj
  rw [hsel, deviceTakes_select_register hf, hrep]
  rfl

/-- One answered Err selects its register or leaves the old one (R77). -/
theorem exec_select_of_register_err {i : Instr} {s t : State} {f : Frame} {a : RegAddr}
    (hf : f = .write1 (cmd a) ∨ ∃ v, f = .write2 (cmd a) v) (h : exec i s = .next t)
    (ht : t.trace = s.trace ++ [⟨f, .err⟩]) : t.select = a ∨ t.select = s.select := by
  obtain ⟨-, hsel⟩ := exec_select_of_trace_append h ht
  rw [hsel, deviceTakes_select_register hf]
  split
  · exact .inl rfl
  · exact .inr rfl

theorem exec_select_of_clear_ok {i : Instr} {s t : State} {bytes : List Byte} (h : exec i s = .next t)
    (ht : t.trace = s.trace ++ [⟨.write1 clearCmd, .ok bytes⟩]) : t.select = s.select := by
  obtain ⟨hj, hsel⟩ := exec_select_of_trace_append h ht
  obtain ⟨bs, hrep⟩ := eq_ok_of_judge hj
  simp [hsel, hrep, deviceTakes]

/-- Settles O53: frame by frame. -/
theorem selectionFrame : Obligations.SelectionFrame := by
  intro i s t h
  exact ⟨exec_select_of_trace_eq h, fun _ _ ht => (exec_select_of_trace_append h ht).2,
    fun _ _ => exec_select_of_register_ok (.inl rfl) h, fun _ => exec_select_of_register_err (.inl rfl) h,
    fun _ => exec_select_of_clear_ok h, fun _ v _ => exec_select_of_register_ok (.inr ⟨v, rfl⟩) h,
    fun _ v => exec_select_of_register_err (.inr ⟨v, rfl⟩) h⟩

end Sys2Proof.Machine
end

section
/-! PROOFS. The device behind the transport (spec/20_memory.md R63, R77, spec/10_state.md R46): the byte a frame stores, that
`nextStore` is the one of the transaction due, and what that transaction leaves of the record and of the selection. -/

namespace Sys2Proof.Machine

/-! ### The register-select byte -/

/-- Settles O8: R63 is `cmd` itself, and its bits are checked address by address. -/
theorem registerSelectByte : Obligations.RegisterSelectByte := by
  intro addr
  obtain ⟨hbit7, hbits6to4⟩ : (cmd addr).extractLsb' 7 1 = 1#1 ∧ (cmd addr).extractLsb' 4 3 = 0#3 := by
    revert addr; decide
  exact ⟨rfl, hbit7, hbits6to4, selectedRegister_cmd addr⟩

/-- A register-select byte is the one of the register it names. -/
theorem cmd_selectedRegister {c : Byte} (h : isRegisterSelect c = true) : cmd (selectedRegister c) = c := by
  revert c; decide

/-! ### The store of a frame, of a script and of an operation -/

/-- The device register a frame stores a byte at, and the byte; only a two-byte write does. -/
def storeOf : Frame → Option (RegAddr × Byte)
  | .write1 _ => none
  | .write2 c v => some (selectedRegister c, v)
  | .read _ => none

/-- The store of the transaction of a script that is due at SEQ `q`. -/
def storeDue (script : List Action) (q : BitVec 2) : Option (RegAddr × Byte) :=
  script[q.toNat]?.bind fun a => storeOf a.frame

theorem storeDue_of_due {script : List Action} {q : BitVec 2} {a : Action} (h : script[q.toNat]? = some a) :
    storeDue script q = storeOf a.frame := by
  simp [storeDue, h]

theorem seq_values (q : BitVec 2) : q = 0#2 ∨ q = 1#2 ∨ q = 2#2 ∨ q = 3#2 := by revert q; decide

/-- A read of registers stores nothing (R64). -/
theorem storeDue_memRead (addr : RegAddr) (n : Nat) (q : BitVec 2) : storeDue (memRead addr n) q = none := by
  obtain rfl | rfl | rfl | rfl := seq_values q <;> rfl

/-- A blind write stores in its first transaction (R65). -/
theorem storeDue_memWrite (addr : RegAddr) (v : Byte) (q : BitVec 2) :
    storeDue (memWrite addr v) q = if q = 0#2 then some (addr, v) else none := by
  obtain rfl | rfl | rfl | rfl := seq_values q <;> simp [storeDue, memWrite, plain, storeOf]

/-- Two blind writes store one after the other (R134). -/
theorem storeDue_memWrite_append (a b : RegAddr) (u v : Byte) (q : BitVec 2) :
    storeDue (memWrite a u ++ memWrite b v) q =
      if q = 0#2 then some (a, u) else if q = 1#2 then some (b, v) else none := by
  obtain rfl | rfl | rfl | rfl := seq_values q <;> simp [storeDue, memWrite, plain, storeOf]

/-- A read-modify-write stores in its third transaction (R111). -/
theorem storeDue_rmw (addr : RegAddr) (pm nb : Byte) (s : State) (q : BitVec 2) :
    storeDue (rmw addr pm nb s) q = if q = 2#2 then some (addr, rmwByte s.mirror pm nb) else none := by
  obtain rfl | rfl | rfl | rfl := seq_values q <;> simp [storeDue, rmw, plain, storeOf]

/-- The clear command stores nothing (R137). -/
theorem storeDue_clear (q : BitVec 2) : storeDue [plain (.write1 clearCmd)] q = none := by
  obtain rfl | rfl | rfl | rfl := seq_values q <;> rfl

/-- `nextStore` is the store of the transaction due. -/
theorem nextStore_eq (i : Instr) (s : State) : nextStore i s = storeDue (scriptOf i s) s.seq := by
  cases i with
  | readReg | readChipId | readChannels | readTiming => exact (storeDue_memRead _ _ _).symm
  | writeReg | setPower => exact (storeDue_memWrite _ _ _).symm
  | setThresh => exact (storeDue_memWrite_append _ _ _ _ _).symm
  | clearInt => exact (storeDue_clear _).symm
  | setGain | setInteg | setManual | setPersist | setIntMode => exact (storeDue_rmw _ _ _ _ _).symm

theorem nextStore_of_due {i : Instr} {s : State} {a : Action} (h : (scriptOf i s)[s.seq.toNat]? = some a) :
    nextStore i s = storeOf a.frame := by
  rw [nextStore_eq, storeDue_of_due h]

/-- Where an operation stores next, the two-byte write that does so is due. -/
theorem due_of_nextStore {i : Instr} {s : State} {a : RegAddr} {v : Byte} (hw : i.wellFormed = true)
    (h : nextStore i s = some (a, v)) :
    ∃ act, (scriptOf i s)[s.seq.toNat]? = some act ∧ act.frame = .write2 (cmd a) v := by
  rw [nextStore_eq, storeDue] at h
  obtain ⟨act, hdue, hstore⟩ := Option.bind_eq_some_iff.mp h
  have hemit := scriptOf_emittable hw (List.mem_of_getElem? hdue)
  refine ⟨act, hdue, ?_⟩
  cases hf : act.frame with
  | write1 | read => simp [hf, storeOf] at hstore
  | write2 c u =>
    obtain ⟨rfl, rfl⟩ : selectedRegister c = a ∧ u = v := by simpa [hf, storeOf] using hstore
    rw [cmd_selectedRegister (by simpa [hf, emittable] using hemit)]

/-! ### The device record over a transaction -/

theorem deviceTakes_device_of_no_store {f : Frame} (h : storeOf f = none) (r : Reply) (s : State) :
    (deviceTakes f r s).device = s.device := by
  cases f with
  | write1 | read => rfl
  | write2 => simp [storeOf] at h

theorem deviceTakes_device_of_store {f : Frame} {a : RegAddr} {v : Byte} (h : storeOf f = some (a, v)) (r : Reply)
    (s : State) :
    (deviceTakes f r s).device = if tookData r then Memory.write s.device a.toNat v else s.device := by
  cases f with
  | write1 | read => simp [storeOf] at h
  | write2 c u =>
    obtain ⟨rfl, rfl⟩ : selectedRegister c = a ∧ u = v := by simpa [storeOf] using h
    rfl

theorem deviceTakes_device_congr {s u : State} (f : Frame) (r : Reply) (h : u.device = s.device) :
    (deviceTakes f r u).device = (deviceTakes f r s).device := by
  cases f <;> simp [deviceTakes, h]

theorem deviceTakes_silent_device (f : Frame) (s : State) : (deviceTakes f .silent s).device = s.device := by
  cases f <;> rfl

/-- Only silence is no answer. -/
theorem eq_silent_of_judge {f : Frame} {r : Reply} (h : judge f r = none) : r = .silent := by
  cases r with
  | silent => rfl
  | err => simp [judge] at h
  | ok bytes =>
    cases f with
    | write1 | write2 => simp [judge] at h
    | read n =>
      simp only [judge] at h
      split at h <;> simp at h

/-- A transaction step leaves of the record what its frame leaves, silent, failed or Ok. -/
theorem transact_device (a : Action) (s : State) :
    (transact a s).device = (deviceTakes a.frame (nextReply s) s).device := by
  rcases hj : judge a.frame (nextReply s) with _ | (bytes | _)
  · rw [transact_silent hj, eq_silent_of_judge hj, deviceTakes_silent_device]
    exact takeReply_device s
  · rw [transact_ok hj]
    exact deviceTakes_device_congr _ _ (takeReply_device s)
  · rw [transact_err hj]
    exact deviceTakes_device_congr _ _ (takeReply_device s)

/-- A step of a meaning is a response, or the transaction due of an operation with a legal argument. -/
theorem exec_respond_or_due {i : Instr} {s t : State} (h : exec i s = .next t) :
    (∃ code r, t = respond code r s) ∨
    (∃ a, i.wellFormed = true ∧ (scriptOf i s)[s.seq.toNat]? = some a ∧ t = transact a s) := by
  obtain ⟨-, rfl⟩ | ⟨-, -, rfl⟩ | ⟨hw, -, a, ha, rfl⟩ | ⟨-, -, -, rfl⟩ := exec_cases h
  · exact .inl ⟨_, _, rfl⟩
  · exact .inl ⟨_, _, rfl⟩
  · exact .inr ⟨a, hw, ha, rfl⟩
  · exact .inl ⟨_, _, rfl⟩

/-- A step of a meaning leaves the record, or writes the byte `nextStore` says where it says (R77). -/
theorem exec_device_cases {i : Instr} {s t : State} (h : exec i s = .next t) :
    t.device = s.device ∨ ∃ a v, nextStore i s = some (a, v) ∧ t.device = Memory.write s.device a.toNat v := by
  obtain ⟨code, r, rfl⟩ | ⟨act, -, hdue, rfl⟩ := exec_respond_or_due h
  · exact .inl rfl
  · rw [nextStore_of_due hdue, transact_device]
    cases hs : storeOf act.frame with
    | none => exact .inl (deviceTakes_device_of_no_store hs _ _)
    | some store =>
      obtain ⟨a, v⟩ := store
      rw [deviceTakes_device_of_store hs]
      split
      · exact .inr ⟨a, v, rfl, rfl⟩
      · exact .inl rfl

/-- Settles O47: a step leaves the record or makes the one write of `nextStore`, and a write shows at its own register. -/
theorem deviceFrame : Obligations.DeviceFrame := by
  intro i s t h
  obtain hdev | ⟨a, v, hstore, hdev⟩ := exec_device_cases h
  · exact ⟨fun _ => hdev, fun _ _ _ => ⟨fun _ _ => by rw [hdev], .inr (by rw [hdev])⟩⟩
  · refine ⟨fun hnone => by simp [hnone] at hstore, fun a' v' hstore' => ?_⟩
    obtain ⟨rfl, rfl⟩ : a = a' ∧ v = v' := by simpa [hstore] using hstore'
    rw [hdev]
    exact ⟨fun b hb => Memory.read_write_other _ _ b _ hb, .inl (Memory.read_write_same _ _ _)⟩

/-! ### A failed write -/

theorem not_failed_of_no_err {s : State} (h : ∀ x ∈ s.trace, x.answer ≠ .err) : failed s = false := by
  rw [Bool.eq_false_iff, Ne, failed_iff]
  rintro ⟨pre, f, htr⟩
  exact h ⟨f, .err⟩ (by simp [htr]) rfl

/-- A failed two-byte write joins the trace, moves the selection by its first draw and stores by its second. -/
theorem transact_write2_err {act : Action} {s : State} {a e : RegAddr} {v : Byte} {c d : Bool} {rs : List Reply}
    (hf : act.frame = .write2 (cmd a) v) (hr : s.replies = .err c d e :: rs) :
    (transact act s).trace = s.trace ++ [⟨.write2 (cmd a) v, .err⟩] ∧
    (transact act s).select = (if c = true then a else s.select) ∧
    (transact act s).device = if d = true then Memory.write s.device a.toNat v else s.device := by
  have hn := nextReply_cons hr
  have hj : judge act.frame (nextReply s) = some .err := by simp [hf, hn, judge]
  refine ⟨?_, ?_, ?_⟩
  · simp [transact_err hj, hf]
  · rw [transact_select hj, hn, deviceTakes_select_register (.inr ⟨v, hf⟩)]
    rfl
  · rw [transact_device, hf, hn, deviceTakes_write2]
    rfl

/-- A transaction a step completes is one the block may emit, and it leaves the record and the selection that its frame
leaves at the device (R90, R77). -/
theorem exec_device_of_trace_append {i : Instr} {s t : State} {f : Frame} {ans : Answer} (h : exec i s = .next t)
    (ht : t.trace = s.trace ++ [⟨f, ans⟩]) :
    emittable f = true ∧ t.device = (deviceTakes f (nextReply s) s).device := by
  obtain ⟨code, r, rfl⟩ | ⟨act, hw, hdue, rfl⟩ := exec_respond_or_due h
  · simp at ht
  · obtain ⟨-, htr, -⟩ | ⟨ans', -, htr, -⟩ := transact_trace_cases act s
    · simp [htr] at ht
    · obtain ⟨rfl, rfl⟩ : act.frame = f ∧ ans' = ans := by simpa [htr] using ht
      exact ⟨scriptOf_emittable hw (List.mem_of_getElem? hdue), transact_device act s⟩

/-- A one-byte write that failed moves the selection by its first draw: to its register, or where the reply drew it for a
clear command (R77). -/
theorem selectionAfter_err {k : Byte} (hk : emittable (.write1 k) = true) (c d : Bool) (e old : RegAddr) :
    selectionAfter k (.err c d e) old =
      if c = true then (if k = clearCmd then e else selectedRegister k) else old := by
  by_cases hclear : k = clearCmd
  · subst hclear
    rw [if_pos rfl]
    rfl
  · have hsel : isRegisterSelect k = true := by simpa [emittable, hclear] using hk
    rw [selectionAfter, if_pos hsel, if_neg hclear]
    rfl

/-- A meaning shows the block the same of two states that only the device's side tells apart (R46, R75). -/
theorem exec_blockSide_congr {i : Instr} {s s' t : State} (hs : blockSide s' = blockSide s) (h : exec i s = .next t) :
    ∃ t', exec i s' = .next t' ∧ blockSide t' = blockSide t := by
  rw [← blockSideOutcome_eq_next, ← blockSideOutcome_exec, hs, blockSideOutcome_exec, h, blockSideOutcome_next]

/-- The draws of a coming failure stand behind the transport. -/
theorem blockSide_err_draws {s : State} {c d : Bool} {e : RegAddr} {rs : List Reply} (h : s.replies = .err c d e :: rs)
    (c' d' : Bool) (e' : RegAddr) : blockSide { s with replies := .err c' d' e' :: rs } = blockSide s := by
  simp [blockSide, h, visibleReply]

/-- Settles O43: the two-byte write due fails as its draws say; a failed one-byte write names a register or clears; and the
block's side of the state has no draw in it. -/
theorem failedWriteIsADraw : Obligations.FailedWriteIsADraw := by
  refine ⟨fun i s a e v c d rs hw herr hstore hr => ?_, fun i s t k c d e rs hr h ht => ?_,
    fun i s t c d c' d' e e' rs hr h => exec_blockSide_congr (blockSide_err_draws hr c' d' e') h⟩
  · obtain ⟨act, hdue, hf⟩ := due_of_nextStore hw hstore
    exact ⟨_, exec_transact hw (not_failed_of_no_err herr) hdue, transact_write2_err hf hr⟩
  · obtain ⟨hemit, hdev⟩ := exec_device_of_trace_append h ht
    obtain ⟨-, hsel⟩ := exec_select_of_trace_append h ht
    rw [nextReply_cons hr] at hsel
    exact ⟨hdev, hsel.trans (selectionAfter_err hemit c d e s.select)⟩

end Sys2Proof.Machine
end

section
/-! PROOFS. The request word (spec/30_encoding.md R80, R87, R98): a row's operation and its fields exactly where a word meets
the row's pattern. The idea: mask and match are made of whole fields, so that meeting them says field by field what the
word is; decoder and encoder are then inverse to each other. -/

namespace Sys2Proof

/-! ### A word that meets a row's pattern -/

/-- Meeting a row's pattern, field by field: OP is the row's, and the fields the row does not use are 0. -/
theorem requestWord_meets_iff (o : Opcode) (op : BitVec 4) (addr : RegAddr) (n : BitVec 4) (rsv : BitVec 3) (sel : BitVec 1)
    (arg : Half) :
    requestWord op addr n rsv sel arg &&& maskWord o = matchWord o ↔
      op = opOf o ∧ addr &&& (maskFields o).1 = 0#4 ∧ n &&& (maskFields o).2.1 = 0#4 ∧
        rsv &&& (maskFields o).2.2.1 = 0#3 ∧ sel &&& (maskFields o).2.2.2.1 = 0#1 ∧
        arg &&& (maskFields o).2.2.2.2 = 0#16 := by
  rw [maskWord_fields, matchWord_fields, requestWord_and, requestWord_inj, and_ones4]

theorem opField_of_meets {o : Opcode} {w : Word} (h : w &&& maskWord o = matchWord o) : opField w = opOf o := by
  rw [← requestWord_fields w, requestWord_meets_iff] at h
  exact h.1

/-- A word that meets a row's pattern decodes to the row's operation with the word's fields (R98). -/
theorem decode_of_meets {o : Opcode} {w : Word} (h : w &&& maskWord o = matchWord o) : decode w = .op (withFields o w) := by
  simp [decode, opField_of_meets h, h]

/-- Only such a word decodes to an operation. -/
theorem meets_of_decode_op {w : Word} {i : Instr} (h : decode w = .op i) :
    ∃ o, w &&& maskWord o = matchWord o ∧ withFields o w = i := by
  unfold decode at h
  split at h
  · cases h
  · next o _ =>
    split at h
    · next hm => exact ⟨o, hm, Decoded.op.inj h⟩
    · cases h

theorem opcodeOf_eq_none_iff (op : BitVec 4) : opcodeOf op = none ↔ op ∈ [0x0#4, 0xE#4, 0xF#4] := by
  revert op; decide

/-- A word is refused for its OP exactly where no row has that OP (R95). -/
theorem decode_eq_reservedOp_iff (w : Word) : decode w = .illegal .reservedOp ↔ opcodeOf (opField w) = none := by
  unfold decode
  split
  · next h => simp [h]
  · next o h => split <;> simp [h]

/-! ### Decoder and encoder are inverse -/

/-- Every operation's word meets the pattern of its row. -/
theorem encode_meets (i : Instr) : encode i &&& maskWord (opcode i) = matchWord (opcode i) := by
  cases i with
  | readReg addr n => exact (Laws.EncodeMeetsRow.readReg addr n).2
  | writeReg addr value => exact (Laws.EncodeMeetsRow.writeReg addr value).2
  | setPower on => exact (Laws.EncodeMeetsRow.setPower on).2
  | setGain high => exact (Laws.EncodeMeetsRow.setGain high).2
  | setInteg mode => exact (Laws.EncodeMeetsRow.setInteg mode).2
  | setManual enable => exact (Laws.EncodeMeetsRow.setManual enable).2
  | setThresh sel value => exact (Laws.EncodeMeetsRow.setThresh sel value).2
  | setPersist cycles => exact (Laws.EncodeMeetsRow.setPersist cycles).2
  | setIntMode mode => exact (Laws.EncodeMeetsRow.setIntMode mode).2
  | clearInt => exact Laws.EncodeMeetsRow.clearInt.2
  | readChipId => exact Laws.EncodeMeetsRow.readChipId.2
  | readChannels => exact Laws.EncodeMeetsRow.readChannels.2
  | readTiming => exact Laws.EncodeMeetsRow.readTiming.2

/-- The fields an operation uses are read back from its word (R87). -/
theorem withFields_encode (i : Instr) : withFields (opcode i) (encode i) = i := by
  cases i <;> simp [encode, opcode, withFields]

/-- The fields a row does not use are 0 in a word that meets its pattern, so the encoder gives the word back. -/
theorem encode_withFields {o : Opcode} {w : Word} (h : w &&& maskWord o = matchWord o) : encode (withFields o w) = w := by
  rw [← requestWord_fields w] at h ⊢
  obtain ⟨hop, haddr, hn, hrsv, hsel, harg⟩ := (requestWord_meets_iff o _ _ _ _ _ _).mp h
  rw [hop]
  cases o <;> simp only [maskFields, and_ones4, and_ones3, and_ones1, and_ones16] at haddr hn hrsv hsel harg <;>
    simp [withFields, encode, opOf, *]

/-- Settles O2: an operation's word meets its row's pattern, and its fields are read back. -/
theorem decodeOfEncode : Obligations.DecodeOfEncode := by
  intro i
  rw [decode_of_meets (encode_meets i), withFields_encode]

/-- Settles O3. -/
theorem encodeOfDecode : Obligations.EncodeOfDecode := by
  intro w i h
  obtain ⟨o, hm, rfl⟩ := meets_of_decode_op h
  exact encode_withFields hm

/-- A row that uses no field has one word. -/
theorem decode_of_eq_matchWord {o : Opcode} (ho : maskWord o = BitVec.allOnes 32) {w : Word} (h : w = matchWord o) :
    decode w = .op (withFields o w) :=
  decode_of_meets (by rw [ho, BitVec.and_allOnes, h])

/-- Settles O4: the rows are `decode_of_meets`, row by row; the rest is that only a word of some row is an operation. -/
theorem decodeFollowsOpcodeTable : Obligations.DecodeFollowsOpcodeTable := by
  intro w
  refine ⟨decode_of_meets (o := .readReg), decode_of_meets (o := .writeReg), decode_of_meets (o := .setPower),
    decode_of_meets (o := .setGain), decode_of_meets (o := .setInteg), decode_of_meets (o := .setManual),
    decode_of_meets (o := .setThresh), decode_of_meets (o := .setPersist), decode_of_meets (o := .setIntMode),
    decode_of_eq_matchWord (o := .clearInt) rfl, decode_of_eq_matchWord (o := .readChipId) rfl,
    decode_of_eq_matchWord (o := .readChannels) rfl, decode_of_eq_matchWord (o := .readTiming) rfl,
    fun hreadReg hwriteReg harg hthresh hfixed => ?_, (decode_eq_reservedOp_iff w).trans (opcodeOf_eq_none_iff _)⟩
  cases hd : decode w with
  | illegal why => exact ⟨why, rfl⟩
  | op i =>
    obtain ⟨o, hm, -⟩ := meets_of_decode_op hd
    cases o with
    | readReg => exact absurd hm hreadReg
    | writeReg => exact absurd hm hwriteReg
    | setThresh => exact absurd hm hthresh
    | setPower | setGain | setInteg | setManual | setPersist | setIntMode =>
      exact absurd (by simp [show w &&& 0xFFFF0000#32 = _ from hm, matchWord]) harg
    | clearInt | readChipId | readChannels | readTiming =>
      exact absurd (by simp [show w = _ from BitVec.and_allOnes.symm.trans hm, matchWord]) hfixed

/-- Settles O1: each word is evaluated. -/
theorem specWordsDecode : Obligations.SpecWordsDecode := by
  unfold Obligations.SpecWordsDecode
  decide

end Sys2Proof
end

section
/-! PROOFS. Around the request word: the assembler's fields (spec/30_encoding.md R99), the pseudo-instructions' words (R100),
the legal ranges (R87) and the two bytes of a threshold (R92). -/

namespace Sys2Proof.Machine

/-! ### The pseudo-instructions -/

/-- ARG is the low half of the word (R80). -/
theorem requestWord_eq_or_arg (op : BitVec 4) (addr : RegAddr) (n : BitVec 4) (rsv : BitVec 3) (sel : BitVec 1) (arg : Half) :
    requestWord op addr n rsv sel arg = requestWord op addr n rsv sel 0#16 ||| arg.setWidth 32 := by
  apply BitVec.eq_of_getLsbD_eq
  intro i hi
  rw [BitVec.getLsbD_or, requestWord_getLsbD, requestWord_getLsbD, BitVec.getLsbD_setWidth]
  by_cases hlow : i < 16
  · simp [hlow, hi]
  · simp [hlow, BitVec.getLsbD_of_ge arg i (by omega)]

/-- Settles O5: the words of fixed argument are evaluated, those of a threshold are a fixed word with ARG put in. -/
theorem pseudoInstructionsExpand : Obligations.PseudoInstructionsExpand := by
  refine ⟨rfl, by decide, rfl, by decide, rfl, by decide, rfl, by decide, fun v => ⟨rfl, ?_, rfl, ?_⟩⟩
  · exact requestWord_eq_or_arg 0x7#4 0#4 0#4 0#3 0#1 v
  · exact requestWord_eq_or_arg 0x7#4 0#4 0#4 0#3 1#1 v

/-! ### The assembler -/

theorem fits_eq {n max : Nat} (hmax : 2 ^ n = max + 1) (k : Nat) :
    fits n k = if k ≤ max then some (BitVec.ofNat n k) else none := by
  simp only [fits, hmax, Nat.lt_succ_iff]

/-- An operation of one numeric field: the value that fits is assembled. -/
theorem fits_map {α : Type} {n max : Nat} (hmax : 2 ^ n = max + 1) (k : Nat) (f : BitVec n → α) :
    (fits n k).map f = if k ≤ max then some (f (BitVec.ofNat n k)) else none := by
  rw [fits_eq hmax]
  split <;> rfl

/-- An operation of two: both have to fit. -/
theorem fits_bind_map {α : Type} {m n max max' : Nat} (hmax : 2 ^ m = max + 1) (hmax' : 2 ^ n = max' + 1) (k l : Nat)
    (f : BitVec m → BitVec n → α) :
    ((fits m k).bind fun x => (fits n l).map fun y => f x y) =
      if k ≤ max ∧ l ≤ max' then some (f (BitVec.ofNat m k) (BitVec.ofNat n l)) else none := by
  simp only [fits_map hmax', fits_eq hmax, ite_and]
  split <;> rfl

/-- Settles O6: each mnemonic's fields are 4 or 16 bits wide. -/
theorem assemblerFitsFields : Obligations.AssemblerFitsFields :=
  ⟨fun a n => fits_bind_map rfl rfl a n Instr.readReg, fun a v => fits_bind_map rfl rfl a v Instr.writeReg,
    fun p v => fits_map rfl v (Instr.setThresh p),
    fun v => ⟨fits_map rfl v Instr.setPower, fits_map rfl v Instr.setGain, fits_map rfl v Instr.setInteg,
      fits_map rfl v Instr.setManual, fits_map rfl v Instr.setPersist, fits_map rfl v Instr.setIntMode⟩⟩

/-! ### The legal ranges -/

theorem readCountLegal_iff (n : BitVec 4) : readCountLegal n = true ↔ 1 ≤ n.toNat ∧ n.toNat ≤ 4 := by
  simp only [readCountLegal, Bool.and_eq_true, decide_eq_true_eq]
  rfl

theorem argAtMost_iff (k : Nat) (v : Half) : argAtMost k v = true ↔ v.toNat ≤ k := by
  simp [argAtMost]

theorem argIsBool_iff (v : Half) : argIsBool v = true ↔ v = 0#16 ∨ v = 1#16 := by
  rw [argIsBool, argAtMost_iff]
  bv_omega

/-- Settles O7. -/
theorem legalArgumentRanges : Obligations.LegalArgumentRanges :=
  ⟨fun _ => readCountLegal_iff, fun _ => argAtMost_iff 0xFF, argIsBool_iff, argIsBool_iff, argAtMost_iff 3, argIsBool_iff,
    fun _ _ => rfl, argAtMost_iff 15, argAtMost_iff 3, rfl, rfl, rfl, rfl⟩

/-! ### The bytes of a threshold -/

theorem toNat_lsb (v : Half) : (lsb v).toNat = v.toNat % 256 := by
  simp [lsb]

theorem toNat_msb (v : Half) : (msb v).toNat = v.toNat / 256 := by
  have hv := v.isLt
  simp only [msb, BitVec.extractLsb'_toNat, Nat.shiftRight_eq_div_pow]
  omega

theorem lsb_eq_and (v : Half) : lsb v = (v &&& 0xFF#16).setWidth 8 := by
  apply BitVec.eq_of_toNat_eq
  rw [toNat_lsb, BitVec.toNat_setWidth, BitVec.toNat_and, show (0xFF#16).toNat = 2 ^ 8 - 1 from rfl,
    Nat.and_two_pow_sub_one_eq_mod, Nat.mod_mod]

theorem msb_eq_shiftRight (v : Half) : msb v = (v >>> 8).setWidth 8 := by
  apply BitVec.eq_of_toNat_eq
  simp [msb]

/-- Settles O9. -/
theorem thresholdSplit : Obligations.ThresholdSplit := by
  refine ⟨fun v => ⟨rfl, lsb_eq_and v, rfl, msb_eq_shiftRight v, ?_⟩, by decide, by decide⟩
  rw [toNat_lsb, toNat_msb]
  omega

end Sys2Proof.Machine
end

section
/-! PROOFS. What the next step of an idle block and of a busy one is (spec/30_encoding.md R80, spec/40_register_access.md
R110): the acceptance or a wait, and the operation REQ decodes to. -/

namespace Sys2Proof.Machine

/-! ### A busy block -/

/-- A busy block runs the operation REQ holds, the host having dropped what it only offered (R227). -/
theorem step_of_busy_op {s : State} {i : Instr} (hb : s.busy = true) (hn : noResetNow s) (hd : decode s.req = .op i) :
    step s = exec i (hostWaits s) := by
  rw [step_of_busy hn hb, busyStep_op (by rw [hostWaits_req, hd])]

theorem decode_of_decodeTableWord {nbits w : Nat} {i : Instr} (h : decodeTableWord nbits w = some i) :
    decode (tableWord nbits w) = .op i := by
  unfold decodeTableWord at h
  split at h
  · next hd => rw [hd, Option.some.inj h]
  · cases h

/-- A placed word is the operation's first step: the resets before it are dropped (log entry 3). -/
theorem noResetNow_withFetchWord (s : State) (nbits w : Nat) : noResetNow (s.withFetchWord nbits w) := by
  intro rest hr
  have hhead := List.head?_dropWhile_not (· == HostEvent.reset) s.host
  rw [show s.host.dropWhile (· == HostEvent.reset) = .reset :: rest from hr] at hhead
  simp at hhead

/-- Settles O14: REQ of a placed word is the word. -/
theorem stepRunsDecodedInstruction : Obligations.StepRunsDecodedInstruction :=
  ⟨fun _ _ hb hn hd => step_of_busy_op hb hn hd,
    fun s nbits w _ hd => step_of_busy_op rfl (noResetNow_withFetchWord s nbits w) (decode_of_decodeTableWord hd)⟩

/-! ### An idle block -/

/-- Settles O16: by what the host presents. -/
theorem acceptanceLatchesRequest : Obligations.AcceptanceLatchesRequest := by
  refine ⟨fun s w rest hb hh => ?_, fun s rest hb hh => ?_, fun s hb hh => ?_⟩
  · obtain hh | hh := hh <;>
      rw [step_of_idle (noResetNow_of_presented (w := w) (by simp [presented, hh])) hb, idleStep, hh] <;> rfl
  · rw [step_of_idle (by simp [noResetNow, hh]) hb, idleStep, hh]
  · rw [step_of_idle (by simp [noResetNow, hh]) hb, idleStep, hh]

end Sys2Proof.Machine
end

section
/-! PROOFS. RESULT at a response (spec/30_encoding.md R94): only the end of a script whose transactions all answered Ok
reports Ok, so RESULT is `resultOf` there; and the layouts of the four results, bit by bit. -/

namespace Sys2Proof.Machine

/-! ### The layouts -/

/-- Bit `i` of packed bytes is bit `i % 8` of byte `i / 8`. -/
theorem packBytes_getLsbD (bytes : List Byte) (i : Nat) (hi : i < 32) :
    (packBytes bytes).getLsbD i = (byteAt bytes (i / 8)).getLsbD (i % 8) := by
  induction bytes generalizing i with
  | nil => simp [packBytes, byteAt]
  | cons b bs ih =>
    rw [packBytes, BitVec.getLsbD_or, BitVec.getLsbD_setWidth, BitVec.getLsbD_shiftLeft]
    by_cases hlow : i < 8
    · simp [hi, hlow, byteAt, Nat.div_eq_of_lt hlow, Nat.mod_eq_of_lt hlow]
    · obtain ⟨j, rfl⟩ : ∃ j, i = j + 8 := ⟨i - 8, by omega⟩
      simp [hi, ih j (by omega), byteAt]

theorem packBytes_extractLsb' {bytes : List Byte} (hlen : bytes.length ≤ 4) (k : Nat) (hk : k < bytes.length) :
    (packBytes bytes).extractLsb' (8 * k) 8 = bytes[k] := by
  apply BitVec.eq_of_getLsbD_eq
  intro i hi
  rw [BitVec.getLsbD_extractLsb', packBytes_getLsbD _ _ (by omega), show (8 * k + i) / 8 = k by omega,
    show (8 * k + i) % 8 = i by omega]
  simp [byteAt, hi, hk]

/-- Nothing stands above the bytes packed. -/
theorem packBytes_lt (bytes : List Byte) : (packBytes bytes).toNat < 2 ^ (8 * bytes.length) := by
  apply Nat.lt_pow_two_of_testBit
  intro i hi
  rw [BitVec.testBit_toNat]
  by_cases h32 : i < 32
  · rw [packBytes_getLsbD _ _ h32, byteAt, List.getD_eq_default _ _ (by omega), BitVec.getLsbD_zero]
  · exact BitVec.getLsbD_of_ge _ _ (by omega)

/-- Where the count is right, all the bytes are packed (R94). -/
theorem readRegResult_of_length {n : BitVec 4} {bytes : List Byte} (h : bytes.length = n.toNat) :
    readRegResult n bytes = packBytes bytes := by
  rw [readRegResult, ← h, List.take_length]

theorem toNat_u16le (lo hi : Byte) : (u16le lo hi).toNat = hi.toNat * 256 + lo.toNat := by
  have hlo := lo.isLt
  rw [u16le, BitVec.toNat_append, ← Nat.shiftLeft_add_eq_or_of_lt hlo, Nat.shiftLeft_eq]

theorem channelsResult_low (b0 b1 b2 b3 : Byte) : (channelsResult [b0, b1, b2, b3]).extractLsb' 0 16 = u16le b0 b1 :=
  BitVec.extractLsb'_append_eq_right

theorem channelsResult_high (b0 b1 b2 b3 : Byte) : (channelsResult [b0, b1, b2, b3]).extractLsb' 16 16 = u16le b2 b3 :=
  BitVec.extractLsb'_append_eq_left

/-- `b >> 4` is the upper nibble (R170). -/
theorem chipIdResult_singleton (b : Byte) : chipIdResult [b] = (b >>> 4).setWidth 32 := by
  have hb := b.isLt
  apply BitVec.eq_of_toNat_eq
  simp only [chipIdResult, byteAt, chipId, List.getD_cons_zero, BitVec.toNat_setWidth, BitVec.extractLsb'_toNat,
    BitVec.toNat_ushiftRight, Nat.shiftRight_eq_div_pow]
  omega

/-- The fields of READ_TIMING's word, and 0 above them (R172). -/
theorem timingWord_fields (b : Byte) :
    (timingWord b).extractLsb' 0 8 = b ∧ (timingWord b).extractLsb' 8 1 = gain b ∧
      (timingWord b).extractLsb' 9 2 = integ b ∧ (timingWord b).extractLsb' 11 1 = manual b ∧
      (timingWord b).extractLsb' 12 20 = 0#20 := by
  revert b; decide

/-! ### The end of an operation -/

/-- A response is an abort, or the end of the operation's script. -/
theorem exec_response_cases {i : Instr} {s t : State} (h : exec i s = .next t) (hr : t.rspValid = true) :
    (∃ code, code ≠ .ok ∧ t = abort code s) ∨ (i.wellFormed = true ∧ t = respond (codeOf i) (resultOf i s) s) := by
  obtain ⟨-, rfl⟩ | ⟨-, -, rfl⟩ | ⟨-, -, a, -, rfl⟩ | ⟨hw, -, -, rfl⟩ := exec_cases h
  · exact .inl ⟨_, by decide, rfl⟩
  · exact .inl ⟨_, by decide, rfl⟩
  · simp at hr
  · exact .inr ⟨hw, rfl⟩

@[simp] theorem statusBits_eq_zero_iff (code : Code) : statusBits code = 0#3 ↔ code = .ok := by
  cases code <;> decide

/-- Under any STATUS but 0 a response has RESULT 0. -/
theorem exec_result_of_status_ne_zero {i : Instr} {s t : State} (h : exec i s = .next t) (hr : t.rspValid = true)
    (hst : t.status ≠ 0#3) : t.result = 0#32 := by
  obtain ⟨code, -, rfl⟩ | ⟨-, rfl⟩ := exec_response_cases h hr
  · rfl
  · exact resultOf_eq_zero s (by simpa using hst)

/-- Under STATUS 0 the argument was legal, and RESULT is the operation's own. -/
theorem exec_result_of_status_zero {i : Instr} {s t : State} (h : exec i s = .next t) (hr : t.rspValid = true)
    (hst : t.status = 0#3) : i.wellFormed = true ∧ t.result = resultOf i s := by
  obtain ⟨code, hcode, rfl⟩ | ⟨hw, rfl⟩ := exec_response_cases h hr
  · exact absurd (by simpa using hst) hcode
  · exact ⟨hw, rfl⟩

/-- Settles O25: RESULT of an Ok response is the layout of the last read's bytes. -/
theorem resultLayout : Obligations.ResultLayout := by
  intro i s t h hr
  refine ⟨exec_result_of_status_ne_zero h hr, fun hst => ?_⟩
  obtain ⟨hw, hres⟩ := exec_result_of_status_zero h hr hst
  cases i with
  | readReg addr n =>
    intro pre bytes htr hlen
    have hn := (readCountLegal_iff n).mp hw
    rw [hres, resultOf, answerBytes_of_trace htr, readRegResult_of_length hlen, ← hlen]
    exact ⟨packBytes_extractLsb' (by omega), packBytes_lt bytes⟩
  | readChipId =>
    intro pre b htr
    rw [hres, resultOf, answerBytes_of_trace htr, chipIdResult_singleton]
  | readChannels =>
    intro pre b0 b1 b2 b3 htr
    rw [hres, resultOf, answerBytes_of_trace htr, channelsResult_low, channelsResult_high]
    exact ⟨toNat_u16le b0 b1, toNat_u16le b2 b3⟩
  | readTiming =>
    intro pre b htr
    rw [hres, resultOf, answerBytes_of_trace htr]
    exact timingWord_fields b
  | writeReg | setPower | setGain | setInteg | setManual | setThresh | setPersist | setIntMode | clearInt => exact hres

end Sys2Proof.Machine
end

section
/-! PROOFS. The frames an operation completes (spec/30_encoding.md R43, R89, R90): each is a transaction of the operation's
script, and of every script it is said once, operation by operation, which frames stand in it. -/

namespace Sys2Proof.Machine

/-- R90's list, with the operations that have each frame (R43, R89). -/
inductive ListedFrame (i : Instr) : Frame → Prop where
  | select (addr : RegAddr) (hi : i ≠ .clearInt) : ListedFrame i (.write1 (cmd addr))
  | clear (hi : i = .clearInt) : ListedFrame i (.write1 clearCmd)
  | readOne (hi : i ≠ .clearInt) : ListedFrame i (.read 1)
  | readChannels (hi : i = .readChannels) : ListedFrame i (.read 4)
  | readReg (addr : RegAddr) (n : BitVec 4) (hi : i = .readReg addr n) : ListedFrame i (.read n.toNat)
  | writeNamed (addr : RegAddr) (v : Byte) (ha : addr.toNat ≤ 6) (hi : i ≠ .clearInt) : ListedFrame i (.write2 (cmd addr) v)
  | writeReg (addr : RegAddr) (value : Half) (v : Byte) (hi : i = .writeReg addr value) :
      ListedFrame i (.write2 (cmd addr) v)

/-! ### Every script is of listed frames -/

theorem forall_mem_memRead {P : Frame → Prop} {addr : RegAddr} {n : Nat} (hselect : P (.write1 (cmd addr)))
    (hread : P (.read n)) : ∀ a ∈ memRead addr n, P a.frame := by
  simp [memRead, plain, hselect, hread]

theorem forall_mem_memWrite {P : Frame → Prop} {addr : RegAddr} {v : Byte} (hwrite : P (.write2 (cmd addr) v)) :
    ∀ a ∈ memWrite addr v, P a.frame := by
  simp [memWrite, plain, hwrite]

theorem forall_mem_rmw {P : Frame → Prop} {addr : RegAddr} {pm nb : Byte} {s : State} (hselect : P (.write1 (cmd addr)))
    (hread : P (.read 1)) (hwrite : P (.write2 (cmd addr) (rmwByte s.mirror pm nb))) :
    ∀ a ∈ rmw addr pm nb s, P a.frame := by
  simp [rmw, plain, hselect, hread, hwrite]

/-- A read-modify-write of CONTROL to INTERRUPT, by any operation but CLEAR_INT. -/
theorem listedFrame_of_mem_rmw {i : Instr} {addr : RegAddr} {pm nb : Byte} {s : State} (ha : addr.toNat ≤ 6)
    (hi : i ≠ .clearInt) : ∀ a ∈ rmw addr pm nb s, ListedFrame i a.frame :=
  forall_mem_rmw (.select addr hi) (.readOne hi) (.writeNamed addr _ ha hi)

/-- A threshold pair lies below INTERRUPT (R84). -/
theorem threshRegs_le (sel : ThreshPair) : (threshLsbReg sel).toNat ≤ 6 ∧ (threshLsbReg sel + 1#4).toNat ≤ 6 := by
  cases sel <;> decide

theorem listedFrame_of_mem_scriptOf (i : Instr) (s : State) : ∀ a ∈ scriptOf i s, ListedFrame i a.frame := by
  cases i with
  | readReg addr n => exact forall_mem_memRead (.select addr nofun) (.readReg addr n rfl)
  | writeReg addr value => exact forall_mem_memWrite (.writeReg addr value _ rfl)
  | setPower => exact forall_mem_memWrite (.writeNamed controlReg _ (by decide) nofun)
  | setGain | setInteg | setManual | setPersist | setIntMode => exact listedFrame_of_mem_rmw (by decide) nofun
  | setThresh sel value =>
    obtain ⟨hlsb, hmsb⟩ := threshRegs_le sel
    exact List.forall_mem_append.mpr ⟨forall_mem_memWrite (.writeNamed _ _ hlsb nofun),
      forall_mem_memWrite (.writeNamed _ _ hmsb nofun)⟩
  | clearInt => exact List.forall_mem_singleton.mpr (.clear rfl)
  | readChipId => exact forall_mem_memRead (.select idReg nofun) (.readOne nofun)
  | readChannels => exact forall_mem_memRead (.select data0LowReg nofun) (.readChannels rfl)
  | readTiming => exact forall_mem_memRead (.select timingReg nofun) (.readOne nofun)

/-- A transaction a step completes is a listed one. -/
theorem listedFrame_of_trace_append {i : Instr} {s t : State} {x : Transaction} (h : exec i s = .next t)
    (ht : t.trace = s.trace ++ [x]) : ListedFrame i x.frame := by
  obtain ⟨code, r, rfl⟩ | ⟨a, ha, rfl⟩ := exec_respond_or_transact h
  · simp at ht
  · obtain ⟨-, htr, -⟩ | ⟨ans, -, htr, -⟩ := transact_trace_cases a s
    · simp [htr] at ht
    · obtain rfl : ⟨a.frame, ans⟩ = x := by simpa [htr] using ht
      exact listedFrame_of_mem_scriptOf i s a ha

/-! ### What the list says -/

namespace ListedFrame

variable {i : Instr} {f : Frame}

theorem selectedRegister_le (h : ListedFrame i f) {c v : Byte} (hf : f = .write2 c v)
    (hi : ∀ addr value, i ≠ .writeReg addr value) : (selectedRegister c).toNat ≤ 6 := by
  cases h with
  | select | clear | readOne | readChannels | readReg => cases hf
  | writeNamed addr u ha =>
    cases hf
    rwa [selectedRegister_cmd]
  | writeReg addr value u hwr => exact absurd hwr (hi addr value)

theorem eq_clear_iff (h : ListedFrame i f) : f = .write1 clearCmd ↔ i = .clearInt := by
  cases h with
  | select addr hi => simp [hi, cmd_ne_clearCmd]
  | clear hi => simp [hi]
  | readOne hi | writeNamed _ _ _ hi => simp [hi]
  | readChannels hi | readReg _ _ hi | writeReg _ _ _ hi => simp [hi]

theorem read_count (h : ListedFrame i f) {n : Nat} (hf : f = .read n) :
    n = 1 ∨ i = .readChannels ∧ n = 4 ∨ ∃ addr m, i = .readReg addr m ∧ n = m.toNat := by
  cases h with
  | select | clear | writeNamed | writeReg => cases hf
  | readOne => cases hf; exact .inl rfl
  | readChannels hi => cases hf; exact .inr (.inl ⟨hi, rfl⟩)
  | readReg addr m hi => cases hf; exact .inr (.inr ⟨addr, m, hi, rfl⟩)

end ListedFrame

/-- Settles O48: that it may be emitted at all rests on the legal argument, the rest on the list. -/
theorem onlyListedFrames : Obligations.OnlyListedFrames := by
  intro i s t x h ht
  have hlisted := listedFrame_of_trace_append h ht
  exact ⟨(exec_device_of_trace_append h ht).1, fun _ _ => hlisted.selectedRegister_le, hlisted.eq_clear_iff,
    fun _ => hlisted.read_count⟩

end Sys2Proof.Machine
end

section
/-! PROOFS. The course of an operation, transaction by transaction (spec/30_encoding.md R80, spec/40_register_access.md
R110): what an operation that is under way does on each answer, and the state an Ok answer leaves. -/

namespace Sys2Proof.Machine

/-! ### The coming replies -/

/-- Taking a reply moves on in the list or, past its end, in the counter (log entry 4). -/
theorem takeReply_eq (s : State) :
    takeReply s = { s with replies := s.replies.tail, draws := if s.replies = [] then s.draws + 1 else s.draws } := by
  unfold takeReply
  split <;> simp [*]

/-- The coming replies depend on those listed and on the counter alone. -/
theorem replyAfter_congr {s t : State} (hr : s.replies = t.replies) (hd : s.draws = t.draws) (k : Nat) :
    replyAfter k s = replyAfter k t := by
  induction k generalizing s t with
  | zero => exact nextReply_congr hr hd
  | succ k ih => exact ih (by simp [takeReply_eq, hr]) (by simp [takeReply_eq, hr, hd])

@[simp] theorem judge_err (f : Frame) (c d : Bool) (e : RegAddr) : judge f (.err c d e) = some .err := by
  cases f <;> rfl

/-- A read that returns the count it asked for is answered Ok, any other is an Err (R61). -/
theorem judge_read_ok {n : Nat} {bytes : List Byte} (h : bytes.length = n) :
    judge (.read n) (.ok bytes) = some (.ok bytes) :=
  if_pos h

theorem judge_read_wrong_count {n : Nat} {bytes : List Byte} (h : bytes.length ≠ n) :
    judge (.read n) (.ok bytes) = some .err :=
  if_neg h

/-! ### An operation under way -/

/-- A script looks at MIRROR alone (R111). -/
theorem scriptOf_congr {s t : State} (h : s.mirror = t.mirror) (i : Instr) : scriptOf i s = scriptOf i t := by
  cases i <;> simp [scriptOf, rmw, h]

/-- `s` is in the course of `i`: the argument is legal, the transactions `done` are completed, each of them Ok. -/
structure Underway (i : Instr) (done : List Transaction) (s : State) : Prop where
  legal : i.wellFormed = true
  trace_eq : s.trace = done
  not_failed : failed s = false
  seq_eq : s.seq.toNat = done.length

namespace Underway

variable {i : Instr} {done : List Transaction} {s : State} {a : Action}

theorem start (hw : i.wellFormed = true) (htr : s.trace = []) (hseq : s.seq = 0#2) : Underway i [] s where
  legal := hw
  trace_eq := htr
  not_failed := by simp [failed, htr]
  seq_eq := by rw [hseq]; rfl

/-- The transaction due is issued. -/
theorem exec_transact (h : Underway i done s) (ha : (scriptOf i s)[done.length]? = some a) :
    exec i s = .next (transact a s) :=
  Machine.exec_transact h.legal h.not_failed (by rw [h.seq_eq, ha])

/-- At the script's end the operation responds. -/
theorem exec_respond (h : Underway i done s) (ha : (scriptOf i s)[done.length]? = none) :
    exec i s = .next (respond (codeOf i) (resultOf i s) s) :=
  Machine.exec_respond h.legal h.not_failed (by rw [h.seq_eq, ha])

/-- While the transport is silent the operation stands where it is (R228). -/
theorem silent (h : Underway i done s) (hj : judge a.frame (nextReply s) = none) : Underway i done (transact a s) := by
  rw [transact_silent hj]
  exact { h with
    trace_eq := by simpa using h.trace_eq
    not_failed := by simpa [failed] using h.not_failed
    seq_eq := by simpa using h.seq_eq }

/-- An Ok answer takes the operation on by one transaction. -/
theorem ok (h : Underway i done s) (ha : (scriptOf i s)[done.length]? = some a) {bytes : List Byte}
    (hj : judge a.frame (nextReply s) = some (.ok bytes)) :
    Underway i (done ++ [⟨a.frame, .ok bytes⟩]) (transact a s) := by
  have htr : (transact a s).trace = done ++ [⟨a.frame, .ok bytes⟩] := by simp [transact_ok hj, h.trace_eq]
  have hlt : s.seq.toNat < 3 := seq_lt_of_due (a := a) (by rw [h.seq_eq, ha])
  exact
    { legal := h.legal
      trace_eq := htr
      not_failed := by simp [failed, htr]
      seq_eq := by
        rw [transact_ok hj, deviceTakes_seq, toNat_seq_succ hlt, h.seq_eq, List.length_append, List.length_singleton] }

/-- An Err answer ends the operation: it joins the trace, and the next step responds (R190). -/
theorem err (h : Underway i done s) (ha : (scriptOf i s)[done.length]? = some a)
    (hj : judge a.frame (nextReply s) = some .err) :
    exec i s = .next (transact a s) ∧ exec i (transact a s) = .next (abort .transportError (transact a s)) ∧
      (transact a s).trace = done ++ [⟨a.frame, .err⟩] ∧ (transact a s).mirror = s.mirror := by
  have htr : (transact a s).trace = done ++ [⟨a.frame, .err⟩] := by simp [transact_err hj, h.trace_eq]
  exact ⟨h.exec_transact ha, exec_failed h.legal ((failed_iff _).mpr ⟨done, a.frame, htr⟩), htr, by simp [transact_err hj]⟩

end Underway

/-! ### The state after an Ok answer -/

/-- After a register select: the selection is then `addr` (log entry 6). -/
def afterSelect (addr : RegAddr) (s : State) : State :=
  { takeReply s with
    inFlight := none, rspValid := false, seq := s.seq + 1#2, select := addr
    trace := s.trace ++ [⟨.write1 (cmd addr), .ok []⟩] }

/-- After a read of `n` bytes that leaves `m` in MIRROR: nothing changes at the device (log entry 5). -/
def afterRead (n : Nat) (bytes : List Byte) (m : Byte) (s : State) : State :=
  { takeReply s with
    inFlight := none, rspValid := false, seq := s.seq + 1#2, mirror := m
    trace := s.trace ++ [⟨.read n, .ok bytes⟩] }

/-- After a two-byte write: the device holds the byte as sent (log entry 22). -/
def afterWrite (addr : RegAddr) (v : Byte) (s : State) : State :=
  { takeReply s with
    inFlight := none, rspValid := false, seq := s.seq + 1#2, select := addr
    device := Memory.write s.device addr.toNat v
    trace := s.trace ++ [⟨.write2 (cmd addr) v, .ok []⟩] }

section AfterOk

variable {i : Instr} {done : List Transaction} {addr : RegAddr} {n : Nat} {v m : Byte} {s : State} {b bytes : List Byte}

@[simp] theorem replyAfter_afterSelect (k : Nat) : replyAfter k (afterSelect addr s) = replyAfter (k + 1) s :=
  replyAfter_congr (s := afterSelect addr s) (t := takeReply s) rfl rfl k

@[simp] theorem replyAfter_afterRead (k : Nat) : replyAfter k (afterRead n bytes m s) = replyAfter (k + 1) s :=
  replyAfter_congr (s := afterRead n bytes m s) (t := takeReply s) rfl rfl k

@[simp] theorem afterSelect_mirror : (afterSelect addr s).mirror = s.mirror := takeReply_mirror s

theorem transact_eq_afterSelect (h : nextReply s = .ok b) :
    transact (plain (.write1 (cmd addr))) s = afterSelect addr s := by
  rw [transact_ok (bytes := []) (by rw [h]; rfl), h]
  simp [deviceTakes, tookCommand, plain, mirrorAfter, afterSelect]

theorem transact_eq_afterRead {a : Action} (hf : a.frame = .read n) (h : nextReply s = .ok bytes)
    (hlen : bytes.length = n) : transact a s = afterRead n bytes (mirrorAfter a bytes s.mirror) s := by
  rw [transact_ok (by rw [hf, h, judge_read_ok hlen]), hf]
  rfl

theorem transact_eq_afterWrite (h : nextReply s = .ok b) :
    transact (plain (.write2 (cmd addr) v)) s = afterWrite addr v s := by
  rw [transact_ok (bytes := []) (by rw [h]; rfl), h]
  simp [deviceTakes, tookCommand, tookData, plain, mirrorAfter, afterWrite]

namespace Underway

/-- A register select that is due and answered Ok. -/
theorem select (h : Underway i done s) (hdue : (scriptOf i s)[done.length]? = some (plain (.write1 (cmd addr))))
    (hr : replyAfter 0 s = .ok b) :
    exec i s = .next (afterSelect addr s) ∧
      Underway i (done ++ [⟨.write1 (cmd addr), .ok []⟩]) (afterSelect addr s) := by
  have hr : nextReply s = .ok b := hr
  rw [← transact_eq_afterSelect hr]
  exact ⟨h.exec_transact hdue, h.ok hdue (by rw [hr]; rfl)⟩

/-- A read that is due and answered with the count it asks for. -/
theorem read {a : Action} (h : Underway i done s) (hdue : (scriptOf i s)[done.length]? = some a)
    (hf : a.frame = .read n) (hr : replyAfter 0 s = .ok bytes) (hlen : bytes.length = n) :
    exec i s = .next (afterRead n bytes (mirrorAfter a bytes s.mirror) s) ∧
      Underway i (done ++ [⟨.read n, .ok bytes⟩]) (afterRead n bytes (mirrorAfter a bytes s.mirror) s) := by
  have hr : nextReply s = .ok bytes := hr
  rw [← transact_eq_afterRead hf hr hlen, ← hf]
  exact ⟨h.exec_transact hdue, h.ok hdue (by rw [hr, hf, judge_read_ok hlen])⟩

/-- A two-byte write that is due and answered Ok. -/
theorem write (h : Underway i done s) (hdue : (scriptOf i s)[done.length]? = some (plain (.write2 (cmd addr) v)))
    (hr : replyAfter 0 s = .ok b) :
    exec i s = .next (afterWrite addr v s) ∧
      Underway i (done ++ [⟨.write2 (cmd addr) v, .ok []⟩]) (afterWrite addr v s) := by
  have hr : nextReply s = .ok b := hr
  rw [← transact_eq_afterWrite hr]
  exact ⟨h.exec_transact hdue, h.ok hdue (by rw [hr]; rfl)⟩

end Underway

end AfterOk

/-! ### The scripts under an obliging transport -/

/-- After the two transactions of a register read (R64). -/
def afterMemRead (addr : RegAddr) (n : Nat) (bytes : List Byte) (s : State) : State :=
  afterRead n bytes s.mirror (afterSelect addr s)

/-- After the first two transactions of a read-modify-write (R111), `cur` read. -/
def afterRmwRead (addr : RegAddr) (cur : Byte) (s : State) : State := afterRead 1 [cur] cur (afterSelect addr s)

/-- After its write-back too. -/
def afterRmw (addr : RegAddr) (pm nb cur : Byte) (s : State) : State :=
  afterWrite addr (rmwByte cur pm nb) (afterRmwRead addr cur s)

section Scripts

variable {i : Instr} {addr : RegAddr} {n : Nat} {v pm nb cur : Byte} {s : State} {b0 b2 bytes : List Byte}

theorem respond_afterWrite (code : Code) (r : Word) (htr : s.trace = []) (hseq : s.seq = 0#2) :
    respond code r (afterWrite addr v s) = { takeReply s with
      seq := 1#2, busy := false, status := statusBits code, result := r, rspValid := true, inFlight := none
      trace := [⟨.write2 (cmd addr) v, .ok []⟩], select := addr, device := Memory.write s.device addr.toNat v } := by
  simp [respond, afterWrite, htr, hseq]

theorem respond_afterMemRead (code : Code) (r : Word) (htr : s.trace = []) (hseq : s.seq = 0#2) :
    respond code r (afterMemRead addr n bytes s) = { takeReply (takeReply s) with
      seq := 2#2, busy := false, status := statusBits code, result := r, rspValid := true, inFlight := none
      trace := [⟨.write1 (cmd addr), .ok []⟩, ⟨.read n, .ok bytes⟩], select := addr } := by
  simp [respond, afterMemRead, afterRead, afterSelect, takeReply_eq, htr, hseq]

theorem respond_afterRmw (code : Code) (r : Word) (htr : s.trace = []) (hseq : s.seq = 0#2) :
    respond code r (afterRmw addr pm nb cur s) = { takeReply (takeReply (takeReply s)) with
      seq := 3#2, mirror := cur, busy := false, status := statusBits code, result := r, rspValid := true, inFlight := none
      trace := [⟨.write1 (cmd addr), .ok []⟩, ⟨.read 1, .ok [cur]⟩, ⟨.write2 (cmd addr) (rmwByte cur pm nb), .ok []⟩]
      select := addr, device := Memory.write s.device addr.toNat (rmwByte cur pm nb) } := by
  simp [respond, afterRmw, afterRmwRead, afterWrite, afterRead, afterSelect, takeReply_eq, htr, hseq]

/-- A blind write (R65): the write, the response. -/
theorem exec_memWrite (hscript : ∀ u, scriptOf i u = memWrite addr v) (hs : Underway i [] s)
    (h0 : replyAfter 0 s = .ok b0) :
    exec i s = .next (afterWrite addr v s) ∧
    exec i (afterWrite addr v s) = .next (respond (codeOf i) (resultOf i (afterWrite addr v s)) (afterWrite addr v s)) := by
  obtain ⟨e0, u1⟩ := hs.write (addr := addr) (v := v) (by rw [hscript]; rfl) h0
  exact ⟨e0, u1.exec_respond (by rw [hscript]; rfl)⟩

/-- A register read (R64): the select, the read, the response. -/
theorem exec_memRead (hscript : ∀ u, scriptOf i u = memRead addr n) (hs : Underway i [] s)
    (h0 : replyAfter 0 s = .ok b0) (h1 : replyAfter 1 s = .ok bytes) (hlen : bytes.length = n) :
    exec i s = .next (afterSelect addr s) ∧
    exec i (afterSelect addr s) = .next (afterMemRead addr n bytes s) ∧
    exec i (afterMemRead addr n bytes s) =
      .next (respond (codeOf i) (resultOf i (afterMemRead addr n bytes s)) (afterMemRead addr n bytes s)) := by
  obtain ⟨e0, u1⟩ := hs.select (addr := addr) (by rw [hscript]; rfl) h0
  obtain ⟨e1, u2⟩ := u1.read (a := plain (.read n)) (by rw [hscript]; rfl) rfl (by simpa using h1) hlen
  rw [show mirrorAfter (plain (.read n)) bytes (afterSelect addr s).mirror = s.mirror from afterSelect_mirror] at e1 u2
  exact ⟨e0, e1, u2.exec_respond (by rw [hscript]; rfl)⟩

@[simp] theorem replyAfter_afterRmwRead (k : Nat) : replyAfter k (afterRmwRead addr cur s) = replyAfter (k + 2) s := by
  simp [afterRmwRead]

/-- A read-modify-write (R111) up to its write-back, which is due with the byte read. -/
theorem exec_rmw_read (hscript : ∀ u, scriptOf i u = rmw addr pm nb u) (hs : Underway i [] s)
    (h0 : replyAfter 0 s = .ok b0) (h1 : replyAfter 1 s = .ok [cur]) :
    exec i s = .next (afterSelect addr s) ∧
    exec i (afterSelect addr s) = .next (afterRmwRead addr cur s) ∧
    Underway i [⟨.write1 (cmd addr), .ok []⟩, ⟨.read 1, .ok [cur]⟩] (afterRmwRead addr cur s) ∧
    (scriptOf i (afterRmwRead addr cur s))[2]? = some (plain (.write2 (cmd addr) (rmwByte cur pm nb))) := by
  obtain ⟨e0, u1⟩ := hs.select (addr := addr) (by rw [hscript]; rfl) h0
  obtain ⟨e1, u2⟩ := u1.read (a := { frame := .read 1, loadsMirror := true }) (by rw [hscript]; rfl) rfl
    (by simpa using h1) rfl
  exact ⟨e0, e1, u2, by rw [hscript]; rfl⟩

/-- Its write-back and response. -/
theorem exec_rmw_write (hscript : ∀ u, scriptOf i u = rmw addr pm nb u) (hs : Underway i [] s)
    (h0 : replyAfter 0 s = .ok b0) (h1 : replyAfter 1 s = .ok [cur]) (h2 : replyAfter 2 s = .ok b2) :
    exec i (afterRmwRead addr cur s) = .next (afterRmw addr pm nb cur s) ∧
    exec i (afterRmw addr pm nb cur s) =
      .next (respond (codeOf i) (resultOf i (afterRmw addr pm nb cur s)) (afterRmw addr pm nb cur s)) := by
  obtain ⟨-, -, u2, hdue⟩ := exec_rmw_read hscript hs h0 h1
  obtain ⟨e2, u3⟩ := u2.write hdue (by simpa using h2)
  exact ⟨e2, u3.exec_respond (by rw [hscript]; rfl)⟩

end Scripts

end Sys2Proof.Machine
end

section
/-! PROOFS. Raw register access (spec/40_register_access.md R112, R113) run to its response. -/

namespace Sys2Proof.Machine

/-- Settles O26: the steps are those of a register read, and RESULT packs the bytes of its read. -/
theorem readRegCompletes : Obligations.ReadRegCompletes := by
  intro s addr n b0 bytes htr hseq hlo hhi h0 h1 hlen
  have hlegal : (Instr.readReg addr n).wellFormed = true := (readCountLegal_iff n).mpr ⟨hlo, hhi⟩
  obtain ⟨e0, e1, e2⟩ := exec_memRead (fun _ => rfl) (.start hlegal htr hseq) h0 h1 hlen
  refine ⟨_, _, _, e0, e1, e2, ?_⟩
  rw [respond_afterMemRead _ _ htr hseq]
  have hresult : resultOf (.readReg addr n) (afterMemRead addr n.toNat bytes s) = packBytes bytes := by
    rw [resultOf, answerBytes_of_trace rfl, readRegResult_of_length hlen]
  rw [hresult]
  rfl

/-- The low byte is a truncation. -/
theorem lsb_eq_setWidth (v : Half) : lsb v = v.setWidth 8 := (BitVec.setWidth_eq_extractLsb' (by decide)).symm

/-- Settles O27: the steps are those of a blind write of the low byte. -/
theorem writeRegCompletes : Obligations.WriteRegCompletes := by
  intro s addr value b0 htr hseq hval h0
  have hlegal : (Instr.writeReg addr value).wellFormed = true := (argAtMost_iff _ value).mpr hval
  obtain ⟨e0, e1⟩ := exec_memWrite (fun _ => rfl) (.start hlegal htr hseq) h0
  refine ⟨_, _, e0, e1, ?_⟩
  rw [respond_afterWrite _ _ htr hseq, lsb_eq_setWidth]
  rfl

end Sys2Proof.Machine
end

section
/-! PROOFS. The operations of R91's table (spec/30_encoding.md R91, spec/40_register_access.md R111): their script is the
read-modify-write the table's row says, and where it ends under each answer of the transport. -/

namespace Sys2Proof.Machine

/-! ### The table of R91 -/

/-- The new bits of an argument that fits its field are the argument, shifted (R91). -/
theorem newBits_eq_setWidth {k width shift : Nat} {arg : Half} (h : argAtMost k arg = true) (hk : k < 2 ^ width) :
    newBits width shift arg = arg.setWidth 8 <<< shift := by
  have hfit : arg.toNat < 2 ^ width := ((argAtMost_iff k arg).mp h).trans_lt hk
  have hfield : (arg.extractLsb' 0 width).setWidth 8 = arg.setWidth 8 := by
    apply BitVec.eq_of_toNat_eq
    simp [BitVec.extractLsb'_toNat, Nat.mod_eq_of_lt hfit]
  rw [newBits, hfield]

theorem gainBits_eq {high : Half} (h : argIsBool high = true) :
    gainBits high = if high = 1#16 then 0x10#8 else 0x00#8 := by
  obtain rfl | rfl := (argIsBool_iff high).mp h <;> rfl

theorem manualBits_eq {enable : Half} (h : argIsBool enable = true) :
    manualBits enable = if enable = 1#16 then 0x08#8 else 0x00#8 := by
  obtain rfl | rfl := (argIsBool_iff enable).mp h <;> rfl

/-- The script of an operation of the table, for a legal argument. -/
theorem scriptOf_of_rmwOf {i : Instr} {addr : RegAddr} {pm nb : Byte} (hi : rmwOf i = some (addr, pm, nb))
    (hw : i.wellFormed = true) (s : State) : scriptOf i s = rmw addr pm nb s := by
  cases i with
  | readReg | writeReg | setPower | setThresh | clearInt | readChipId | readChannels | readTiming => simp [rmwOf] at hi
  | setGain high =>
    cases hi
    rw [← gainBits_eq hw]
    rfl
  | setManual enable =>
    cases hi
    rw [← manualBits_eq hw]
    rfl
  | setInteg m =>
    cases hi
    rw [scriptOf, integBits, newBits_eq_setWidth hw (by decide), BitVec.shiftLeft_zero]
    rfl
  | setPersist c =>
    cases hi
    rw [scriptOf, persistBits, newBits_eq_setWidth hw (by decide), BitVec.shiftLeft_zero]
    rfl
  | setIntMode m =>
    cases hi
    rw [scriptOf, modeBits, newBits_eq_setWidth hw (by decide)]
    rfl

theorem resultOf_of_rmwOf {i : Instr} {row : RegAddr × Byte × Byte} (hi : rmwOf i = some row) (s : State) :
    resultOf i s = 0#32 := by
  cases i with
  | readReg | readChipId | readChannels | readTiming => simp [rmwOf] at hi
  | _ => rfl

/-- Only SET_INTMODE 2 ends with another code than Ok (R196). -/
theorem statusBits_codeOf (i : Instr) : statusBits (codeOf i) = if i = .setIntMode 2#16 then 3#3 else 0#3 := by
  cases i with
  | setIntMode m => by_cases hm : m = 2#16 <;> simp [codeOf, intModeCode, hm, statusBits]
  | _ => rfl

/-! ### Run to the response -/

/-- Settles O29: the steps of a read-modify-write, with the row of the operation. -/
theorem rmwOperationsComplete : Obligations.RmwOperationsComplete := by
  intro i addr pm nb s b0 b2 cur hi hw htr hseq h0 h1 h2
  have hscript := scriptOf_of_rmwOf hi hw
  have hs := Underway.start hw htr hseq
  obtain ⟨e0, e1, -⟩ := exec_rmw_read hscript hs h0 h1
  obtain ⟨e2, e3⟩ := exec_rmw_write hscript hs h0 h1 h2
  refine ⟨_, _, _, _, e0, e1, e2, e3, ?_⟩
  rw [respond_afterRmw _ _ htr hseq, resultOf_of_rmwOf hi, statusBits_codeOf]
  rfl

/-! ### Failing on the way -/

/-- Settles O40: the select fails, the read fails, the write-back fails, or none does. -/
theorem rmwTraceLengths : Obligations.RmwTraceLengths := by
  intro i addr pm nb s hi hw htr hseq
  have hscript := scriptOf_of_rmwOf hi hw
  have hs := Underway.start hw htr hseq
  refine ⟨fun c d e h0 => ?_, fun b0 h0 h1 => ?_, fun b0 cur c d e h0 h1 h2 => ?_, fun b0 cur b2 h0 h1 h2 => ?_⟩
  · have hfail : judge (.write1 (cmd addr)) (nextReply s) = some .err := by rw [show nextReply s = _ from h0, judge_err]
    obtain ⟨e0, e1, htr1, hmirror⟩ := hs.err (a := plain (.write1 (cmd addr))) (by rw [hscript]; rfl) hfail
    exact ⟨_, _, e0, e1, rfl, rfl, htr1, hmirror⟩
  · have hfail : judge (.read 1) (replyAfter 1 s) = some .err := by
      obtain ⟨c, d, e, h1⟩ | ⟨bytes, h1, hlen⟩ := h1
      · rw [h1, judge_err]
      · rw [h1, judge_read_wrong_count hlen]
    obtain ⟨e0, u1⟩ := hs.select (addr := addr) (by rw [hscript]; rfl) h0
    obtain ⟨e1, e2, htr2, hmirror⟩ := u1.err (a := { frame := .read 1, loadsMirror := true }) (by rw [hscript]; rfl) hfail
    exact ⟨_, _, _, e0, e1, e2, rfl, rfl, htr2, hmirror.trans afterSelect_mirror⟩
  · obtain ⟨e0, e1, u2, hdue⟩ := exec_rmw_read hscript hs h0 h1
    have h2' : nextReply (afterRmwRead addr cur s) = .err c d e := (replyAfter_afterRmwRead 0).trans h2
    obtain ⟨e2, e3, htr3, -⟩ := u2.err hdue (by rw [h2', judge_err])
    exact ⟨_, _, _, _, e0, e1, e2, e3, rfl, rfl, rfl, htr3⟩
  · obtain ⟨e0, e1, -⟩ := exec_rmw_read hscript hs h0 h1
    obtain ⟨e2, e3⟩ := exec_rmw_write hscript hs h0 h1 h2
    refine ⟨_, _, _, _, e0, e1, e2, e3, rfl, rfl, ?_, ?_⟩
    · rw [respond_status, statusBits_codeOf]
      split <;> simp
    · rw [respond_afterRmw _ _ htr hseq]
      rfl

end Sys2Proof.Machine
end

section
/-! PROOFS. The machine refines the pseudocode of spec/40_register_access.md R110 and R111. The idea: a state of the machine
stands at a point of the pseudocode where they have the same trace and the same replies to come; from such a point one
`TxWrite` or `TxRead` is as many steps as it takes replies (R60, R228), and every body of R112 on is a chain of those. -/

namespace Sys2Proof.Machine

/-! ### The pseudocode -/

@[simp] theorem thenRun_done {α β : Type} (x : α) (p : Port) (k : α → Port → Ran β) : thenRun (.done x p) k = k x p := rfl

theorem thenRun_assoc {α β γ : Type} (m : Ran α) (k : α → Port → Ran β) (k' : β → Port → Ran γ) :
    thenRun (thenRun m k) k' = thenRun m fun a p => thenRun (k a p) k' := by
  cases m <;> rfl

/-- How `Execute` ends once the argument is in range (R110). -/
def completion : Ran (Code × Word) → Option Completed
  | .done (code, r) p => some ⟨code, r, p.trace, p.replies⟩
  | .raised p => some ⟨.transportError, 0#32, p.trace, p.replies⟩
  | .waits => none

theorem execute_illegal {w : Word} {why : IllegalReason} (hd : decode w = .illegal why) (replies : List Reply) :
    execute w replies = some ⟨.illegalRequest, 0#32, [], replies⟩ := by
  unfold execute; rw [hd]

theorem execute_outOfRange {w : Word} {i : Instr} (hd : decode w = .op i) (hw : i.wellFormed = false)
    (replies : List Reply) : execute w replies = some ⟨.invalidArgument, 0#32, [], replies⟩ := by
  unfold execute; rw [hd]
  exact if_pos hw

theorem execute_legal {w : Word} {i : Instr} (hd : decode w = .op i) (hw : i.wellFormed = true) (replies : List Reply) :
    execute w replies = completion (runBody i ⟨replies, []⟩) := by
  unfold execute; rw [hd]
  simp only [hw, Bool.true_eq_false, if_false]
  rcases runBody i ⟨replies, []⟩ with ⟨⟨code, r⟩, p⟩ | p | _ <;> rfl

section Tx

variable {f : Frame} {r : Reply} {rs : List Reply} {tr : List Transaction}

theorem tx_silent (hj : judge f r = none) : tx f ⟨r :: rs, tr⟩ = tx f ⟨rs, tr⟩ := by
  simp only [tx, firstAnswer, hj]

theorem tx_ok {bytes : List Byte} (hj : judge f r = some (.ok bytes)) :
    tx f ⟨r :: rs, tr⟩ = .done bytes ⟨rs, tr ++ [⟨f, .ok bytes⟩]⟩ := by
  simp only [tx, firstAnswer, hj]

theorem tx_err (hj : judge f r = some .err) : tx f ⟨r :: rs, tr⟩ = .raised ⟨rs, tr ++ [⟨f, .err⟩]⟩ := by
  simp only [tx, firstAnswer, hj]

end Tx

/-! ### The machine and the pseudocode side by side -/

theorem run_succ {s s' : State} (h : step s = .next s') (k : Nat) : core.run (k + 1) s = core.run k s' := by
  simp only [Host.Core.run, show core.step s = .next s' from h]

/-- Where the host does nothing more, a busy block just works. -/
theorem step_of_busy_alone {s : State} (hb : s.busy = true) (hh : s.host = []) : step s = busyStep s := by
  rw [step_of_busy (by simp [noResetNow, hh]) hb]
  simp [hostWaits, hh]

/-- The state shows the response, the trace and the leftover replies of `c`, with `more` replies behind those. -/
def Shows (more : List Reply) (c : Completed) (t : State) : Prop :=
  t.rspValid = true ∧ t.busy = false ∧ rspStatus t = statusBits c.code ∧ rspResult t = c.result ∧ t.trace = c.trace ∧
    t.replies = c.replies ++ more

/-- From `s` the machine comes to what the pseudocode `m` comes to, in a step for each reply and one for the response. -/
def Refines (more : List Reply) (m : Ran (Code × Word)) (s : State) : Prop :=
  ∀ c, completion m = some c →
    ∃ k t, core.run (k + 1) s = .next t ∧ s.replies.length = k + t.replies.length ∧ Shows more c t

theorem Refines.of_step {more : List Reply} {m : Ran (Code × Word)} {s s' : State} (hstep : step s = .next s')
    (hlen : s.replies.length = s'.replies.length + 1) (h : Refines more m s') : Refines more m s := by
  intro c hc
  obtain ⟨k, t, hrun, hk, ht⟩ := h c hc
  exact ⟨k + 1, t, by rw [run_succ hstep, hrun], by omega, ht⟩

/-- A step that responds as the pseudocode ends. -/
theorem Refines.of_respond {more : List Reply} {m : Ran (Code × Word)} {s : State} {code : Code} {r : Word} {p : Port}
    (hstep : step s = .next (respond code r s)) (hm : completion m = some ⟨code, r, p.trace, p.replies⟩)
    (htr : s.trace = p.trace) (hr : s.replies = p.replies ++ more) : Refines more m s := by
  intro c hc
  obtain rfl := Option.some.inj (hm.symm.trans hc)
  exact ⟨0, _, run_succ hstep 0, (Nat.zero_add _).symm, rfl, rfl, rfl, rfl, htr, hr⟩

/-- The machine, busy with `i` and its host silent, stands where the pseudocode of `i` stands at `p`. -/
structure StandsAt (i : Instr) (more : List Reply) (p : Port) (s : State) : Prop where
  busy : s.busy = true
  host_eq : s.host = []
  decoded : decode s.req = .op i
  underway : Underway i p.trace s
  replies_eq : s.replies = p.replies ++ more

namespace StandsAt

variable {i : Instr} {more rs : List Reply} {tr tr' : List Transaction} {p : Port} {s : State} {a : Action} {r : Reply}

theorem step_eq (h : StandsAt i more p s) : step s = exec i s := by
  rw [step_of_busy_alone h.busy h.host_eq, busyStep_op h.decoded]

theorem nextReply_eq (h : StandsAt i more ⟨r :: rs, tr⟩ s) : nextReply s = r :=
  nextReply_cons h.replies_eq

theorem transact_replies_eq (h : StandsAt i more ⟨r :: rs, tr⟩ s) : (transact a s).replies = rs ++ more := by
  simp [takeReply_eq, h.replies_eq]

/-- A transaction step uses up one reply. -/
theorem of_transact (h : StandsAt i more ⟨r :: rs, tr⟩ s) (hu : Underway i tr' (transact a s)) :
    StandsAt i more ⟨rs, tr'⟩ (transact a s) where
  busy := by simpa using h.busy
  host_eq := by simpa using h.host_eq
  decoded := by simpa using h.decoded
  underway := hu
  replies_eq := h.transact_replies_eq

theorem refines_of_transact {m : Ran (Code × Word)} (h : StandsAt i more ⟨r :: rs, tr⟩ s)
    (ha : (scriptOf i s)[tr.length]? = some a) (hm : Refines more m (transact a s)) : Refines more m s := by
  refine hm.of_step (by rw [h.step_eq, h.underway.exec_transact ha]) ?_
  rw [h.transact_replies_eq, h.replies_eq]
  rfl

/-- The response the operation ends with is the one its pseudocode returns (R110). -/
theorem refines_done {res : Word} (h : StandsAt i more p s) (hend : (scriptOf i s)[p.trace.length]? = none)
    (hres : resultOf i s = res) : Refines more (.done (codeOf i, res) p) s := by
  subst hres
  exact .of_respond (by rw [h.step_eq, h.underway.exec_respond hend]) rfl h.underway.trace_eq h.replies_eq

/-- `TxWrite` and `TxRead`: the transaction due, by induction on the replies that come; if it is answered Ok, what follows
must refine what follows in the pseudocode. -/
theorem refines_tx {k : List Byte → Port → Ran (Code × Word)} (h : StandsAt i more ⟨rs, tr⟩ s)
    (ha : (scriptOf i s)[tr.length]? = some a)
    (hk : ∀ bytes rs' s', StandsAt i more ⟨rs', tr ++ [⟨a.frame, .ok bytes⟩]⟩ s' → s'.mirror = mirrorAfter a bytes s.mirror →
      Refines more (k bytes ⟨rs', tr ++ [⟨a.frame, .ok bytes⟩]⟩) s') :
    Refines more (thenRun (tx a.frame ⟨rs, tr⟩) k) s := by
  induction rs generalizing s with
  | nil =>
    intro c hc
    cases hc
  | cons r rs ih =>
    refine h.refines_of_transact ha ?_
    have hn := h.nextReply_eq
    rcases hj : judge a.frame r with _ | (bytes | _)
    · have hj' : judge a.frame (nextReply s) = none := by rw [hn, hj]
      have hmirror : (transact a s).mirror = s.mirror := by simp [transact_silent hj']
      rw [tx_silent hj]
      exact ih (h.of_transact (h.underway.silent hj')) (by rw [scriptOf_congr hmirror, ha]) (by rwa [hmirror])
    · have hj' : judge a.frame (nextReply s) = some (.ok bytes) := by rw [hn, hj]
      rw [tx_ok hj, thenRun_done]
      exact hk bytes rs _ (h.of_transact (h.underway.ok ha hj')) (by simp [transact_ok hj'])
    · obtain ⟨-, hexec, htr, -⟩ := h.underway.err ha (by rw [hn, hj])
      have hstep : step (transact a s) = .next (abort .transportError (transact a s)) := by
        rw [step_of_busy_alone (by simpa using h.busy) (by simpa using h.host_eq),
          busyStep_op (by simpa using h.decoded), hexec]
      rw [tx_err hj]
      exact .of_respond hstep rfl htr h.transact_replies_eq

end StandsAt

/-! ### The bodies -/

section Bodies

variable {i : Instr} {more rs : List Reply} {s : State} {addr : RegAddr} {n : Nat} {v pm nb : Byte}

/-- `MemRead` and the RESULT computed from its bytes (R64). -/
theorem StandsAt.refines_memRead {f : List Byte → Word} (h : StandsAt i more ⟨rs, []⟩ s)
    (hscript : ∀ u, scriptOf i u = memRead addr n) (hres : ∀ u, resultOf i u = f (answerBytes u)) :
    Refines more (thenRun (runMemRead addr n ⟨rs, []⟩) fun b p => .done (codeOf i, f b) p) s := by
  rw [runMemRead, thenRun_assoc]
  refine h.refines_tx (a := plain (.write1 (cmd addr))) (by rw [hscript]; rfl) fun _ rs1 s1 h1 _ => ?_
  refine h1.refines_tx (a := plain (.read n)) (by rw [hscript]; rfl) fun bytes rs2 s2 h2 _ => ?_
  exact h2.refines_done (by rw [hscript]; rfl) (by rw [hres, answerBytes_of_trace h2.underway.trace_eq])

/-- `MemWrite` (R65). -/
theorem StandsAt.refines_memWrite (h : StandsAt i more ⟨rs, []⟩ s)
    (hscript : ∀ u, scriptOf i u = memWrite addr v) (hres : ∀ u, resultOf i u = 0#32) :
    Refines more (thenRun (runMemWrite addr v ⟨rs, []⟩) fun _ p => .done (codeOf i, 0#32) p) s := by
  rw [runMemWrite, thenRun_assoc]
  refine h.refines_tx (a := plain (.write2 (cmd addr) v)) (by rw [hscript]; rfl) fun _ rs1 s1 h1 _ => ?_
  exact h1.refines_done (by rw [hscript]; rfl) (hres _)

/-- `RMW` (R111): the byte written back is computed from the one MIRROR got. -/
theorem StandsAt.refines_rmw (h : StandsAt i more ⟨rs, []⟩ s)
    (hscript : ∀ u, scriptOf i u = rmw addr pm nb u) (hres : ∀ u, resultOf i u = 0#32) :
    Refines more (thenRun (runRmw addr pm nb ⟨rs, []⟩) fun _ p => .done (codeOf i, 0#32) p) s := by
  simp only [runRmw, runMemRead, runMemWrite, thenRun_assoc]
  refine h.refines_tx (a := plain (.write1 (cmd addr))) (by rw [hscript]; rfl) fun _ rs1 s1 h1 _ => ?_
  refine h1.refines_tx (a := { frame := .read 1, loadsMirror := true }) (by rw [hscript]; rfl) fun b rs2 s2 h2 hm => ?_
  have hbyte : rmwByte (byteAt b 0) pm nb = rmwByte s2.mirror pm nb := by rw [hm]; rfl
  rw [hbyte]
  refine h2.refines_tx (a := plain (.write2 (cmd addr) (rmwByte s2.mirror pm nb))) (by rw [hscript]; rfl)
    fun _ rs3 s3 h3 _ => ?_
  exact h3.refines_done (by rw [hscript]; rfl) (hres _)

/-- The body of every operation (R112, R113, R130 to R137, R170 to R172). -/
theorem StandsAt.refines_body (h : StandsAt i more ⟨rs, []⟩ s) : Refines more (runBody i ⟨rs, []⟩) s := by
  cases i with
  | readReg | readChipId | readChannels | readTiming => exact h.refines_memRead (fun _ => rfl) (fun _ => rfl)
  | writeReg | setPower => exact h.refines_memWrite (fun _ => rfl) (fun _ => rfl)
  | setGain | setInteg | setManual | setPersist | setIntMode => exact h.refines_rmw (fun _ => rfl) (fun _ => rfl)
  | setThresh sel value =>
    simp only [runBody, runMemWrite, thenRun_assoc, thenRun_done]
    refine h.refines_tx (a := plain (.write2 (cmd (threshLsbReg sel)) (lsb value))) rfl fun _ rs1 s1 h1 _ => ?_
    refine h1.refines_tx (a := plain (.write2 (cmd (threshLsbReg sel + 1#4)) (msb value))) rfl fun _ rs2 s2 h2 _ => ?_
    exact h2.refines_done rfl rfl
  | clearInt =>
    refine h.refines_tx (a := plain (.write1 clearCmd)) rfl fun _ rs1 s1 h1 _ => ?_
    exact h1.refines_done rfl rfl

end Bodies

/-! ### The whole request -/

/-- A request just accepted refines `Execute` (R110): its three ends. -/
theorem refines_execute {s : State} {replies more : List Reply} (hb : s.busy = true) (hh : s.host = [])
    (htr : s.trace = []) (hseq : s.seq = 0#2) (hr : s.replies = replies ++ more) :
    ∃ m, execute s.req replies = completion m ∧ Refines more m s := by
  have hstep := step_of_busy_alone hb hh
  cases hd : decode s.req with
  | illegal why =>
    rw [busyStep_illegal hd] at hstep
    exact ⟨.done (.illegalRequest, 0#32) ⟨replies, []⟩, execute_illegal hd replies, .of_respond hstep rfl htr hr⟩
  | op i =>
    cases hw : i.wellFormed with
    | false =>
      rw [busyStep_op hd, exec_illegal _ hw] at hstep
      exact ⟨.done (.invalidArgument, 0#32) ⟨replies, []⟩, execute_outOfRange hd hw replies, .of_respond hstep rfl htr hr⟩
    | true =>
      have hstands : StandsAt i more ⟨replies, []⟩ s := ⟨hb, hh, hd, .start hw htr hseq, hr⟩
      exact ⟨runBody i ⟨replies, []⟩, execute_legal hd hw replies, hstands.refines_body⟩

/-- Settles O52: the acceptance, then `refines_execute`; the count is that of the replies used up. -/
theorem machineRefinesPseudocode : Obligations.MachineRefinesPseudocode := by
  intro s w replies more c hb hh hr hc
  have haccept : step s = .next (accept w { s with host := [] }) := by
    rw [step_of_idle (by simp [noResetNow, hh]) hb, idleStep, hh]
  obtain ⟨m, hm, href⟩ := refines_execute (s := accept w { s with host := [] }) rfl rfl rfl rfl hr
  obtain ⟨k, t, hrun, hlen, hrsp, hbusy, hcode, hresult, htrace, hleft⟩ := href c (hm.symm.trans hc)
  have hk : replies.length - c.replies.length + 2 = k + 1 + 1 := by
    rw [hleft, show (accept w { s with host := [] }).replies = replies ++ more from hr, List.length_append,
      List.length_append] at hlen
    omega
  exact ⟨t, by rw [hk, run_succ haccept, hrun], hrsp, hbusy, hcode, hresult, htrace, hleft⟩

end Sys2Proof.Machine
end

section
/-! PROOFS. The field encoders (spec/41_field_encoders.md R130 to R137) run to their response: a blind write, two of them, or
the clear command, as whole states; and the byte of each read-modify-write, bit by bit. -/

namespace Sys2Proof.Machine

/-! ### The blind writes -/

/-- The byte of a legal argument of SET_POWER (R130). -/
theorem powerByte_eq {on : Half} (h : argIsBool on = true) : powerByte on = if on = 1#16 then 0x03#8 else 0x00#8 := by
  obtain rfl | rfl := (argIsBool_iff on).mp h <;> rfl

/-- Settles O28: the steps are those of a blind write of CONTROL. -/
theorem setPowerCompletes : Obligations.SetPowerCompletes := by
  intro s on b0 htr hseq hon h0
  have hlegal : (Instr.setPower on).wellFormed = true := (argIsBool_iff on).mpr hon
  obtain ⟨e0, e1⟩ := exec_memWrite (fun _ => rfl) (.start hlegal htr hseq) h0
  refine ⟨_, _, e0, e1, ?_⟩
  rw [respond_afterWrite _ _ htr hseq, powerByte_eq hlegal]
  rfl

@[simp] theorem replyAfter_afterWrite (addr : RegAddr) (v : Byte) (s : State) (k : Nat) :
    replyAfter k (afterWrite addr v s) = replyAfter (k + 1) s :=
  replyAfter_congr (s := afterWrite addr v s) (t := takeReply s) rfl rfl k

/-- Two blind writes, one after the other (R134): the lower register's, the higher one's, the response. -/
theorem exec_memWrite_append {i : Instr} {lo hi : RegAddr} {u v : Byte} {s : State} {b0 b1 : List Byte}
    (hscript : ∀ w, scriptOf i w = memWrite lo u ++ memWrite hi v) (hs : Underway i [] s)
    (h0 : replyAfter 0 s = .ok b0) (h1 : replyAfter 1 s = .ok b1) :
    exec i s = .next (afterWrite lo u s) ∧
    exec i (afterWrite lo u s) = .next (afterWrite hi v (afterWrite lo u s)) ∧
    exec i (afterWrite hi v (afterWrite lo u s)) =
      .next (respond (codeOf i) (resultOf i (afterWrite hi v (afterWrite lo u s)))
        (afterWrite hi v (afterWrite lo u s))) := by
  obtain ⟨e0, u1⟩ := hs.write (addr := lo) (v := u) (by rw [hscript]; rfl) h0
  obtain ⟨e1, u2⟩ := u1.write (addr := hi) (v := v) (by rw [hscript]; rfl) (by simpa using h1)
  exact ⟨e0, e1, u2.exec_respond (by rw [hscript]; rfl)⟩

theorem respond_afterWrite_afterWrite {lo hi : RegAddr} {u v : Byte} {s : State} (code : Code) (r : Word)
    (htr : s.trace = []) (hseq : s.seq = 0#2) :
    respond code r (afterWrite hi v (afterWrite lo u s)) = { takeReply (takeReply s) with
      seq := 2#2, busy := false, status := statusBits code, result := r, rspValid := true, inFlight := none
      trace := [⟨.write2 (cmd lo) u, .ok []⟩, ⟨.write2 (cmd hi) v, .ok []⟩], select := hi
      device := Memory.write (Memory.write s.device lo.toNat u) hi.toNat v } := by
  simp [respond, afterWrite, takeReply_eq, htr, hseq]

/-- Settles O33: the steps are those of the two blind writes, at the pair's registers. -/
theorem setThreshCompletes : Obligations.SetThreshCompletes := by
  intro s sel value b0 b1 lo hi htr hseq hlow hhigh h0 h1
  obtain ⟨rfl, rfl⟩ : lo = threshLsbReg sel ∧ hi = threshLsbReg sel + 1#4 := by
    cases sel with
    | low => exact hlow rfl
    | high => exact hhigh rfl
  obtain ⟨e0, e1, e2⟩ := exec_memWrite_append (i := .setThresh sel value) (fun _ => rfl) (.start rfl htr hseq) h0 h1
  refine ⟨_, _, _, e0, e1, e2, ?_⟩
  rw [respond_afterWrite_afterWrite _ _ htr hseq]
  rfl

/-! ### The clear command -/

/-- After a clear command answered Ok: nothing changes at the device (log entries 5 and 6). -/
def afterClear (s : State) : State :=
  { takeReply s with
    inFlight := none, rspValid := false, seq := s.seq + 1#2
    trace := s.trace ++ [⟨.write1 clearCmd, .ok []⟩] }

theorem transact_eq_afterClear {s : State} {b : List Byte} (h : nextReply s = .ok b) :
    transact (plain (.write1 clearCmd)) s = afterClear s := by
  rw [transact_ok (bytes := []) (by rw [h]; rfl), h]
  simp [deviceTakes, plain, mirrorAfter, afterClear]

/-- Settles O36: the clear command, then the response. -/
theorem clearIntCompletes : Obligations.ClearIntCompletes := by
  intro s b0 htr hseq h0
  have hr : nextReply s = .ok b0 := h0
  have hs : Underway .clearInt [] s := .start rfl htr hseq
  have e0 := hs.exec_transact (a := plain (.write1 clearCmd)) rfl
  have e1 := (hs.ok (a := plain (.write1 clearCmd)) (bytes := []) rfl (by rw [hr]; rfl)).exec_respond rfl
  rw [transact_eq_afterClear hr] at e0 e1
  refine ⟨_, _, e0, e1, ?_⟩
  simp [respond, afterClear, htr, hseq, codeOf, resultOf, statusBits, clearCmd]

/-! ### The byte of a read-modify-write -/

/-- A bit the preserve mask has is kept, and the new bits are laid over (R12). -/
theorem getLsbD_rmwByte (cur pm nb : Byte) (k : Nat) :
    (rmwByte cur pm nb).getLsbD k = ((cur.getLsbD k && pm.getLsbD k) || nb.getLsbD k) := by
  simp [rmwByte]

/-- A field encoder's new bits are the low bits of its argument, in the field's place (R91). -/
theorem getLsbD_newBits (width shift : Nat) (arg : Half) (k : Nat) :
    (newBits width shift arg).getLsbD k =
      (decide (k < 8) && decide (shift ≤ k) && decide (k - shift < width) && arg.getLsbD (k - shift)) := by
  by_cases hk : k < 8
  · by_cases hs : shift ≤ k
    · simp [newBits, hk, hs]
    · simp [newBits, hs, Nat.not_le.mp hs]
  · simp [newBits, hk]

/-- A field the preserve mask covers, where the new bits are 0, is kept (R12). -/
theorem extractLsb'_rmwByte_kept {cur pm nb : Byte} {lo width : Nat}
    (hpm : pm.extractLsb' lo width = BitVec.allOnes width) (hnb : nb.extractLsb' lo width = 0#width) :
    (rmwByte cur pm nb).extractLsb' lo width = cur.extractLsb' lo width := by
  rw [rmwByte, BitVec.extractLsb'_or, BitVec.extractLsb'_and, hpm, hnb, BitVec.and_allOnes, BitVec.or_zero]

/-- A field the preserve mask clears is the new bits' (R12). -/
theorem extractLsb'_rmwByte_replaced {cur pm nb : Byte} {lo width : Nat} (hpm : pm.extractLsb' lo width = 0#width) :
    (rmwByte cur pm nb).extractLsb' lo width = nb.extractLsb' lo width := by
  rw [rmwByte, BitVec.extractLsb'_or, BitVec.extractLsb'_and, hpm, BitVec.and_zero, BitVec.zero_or]

/-- The new bits' own field is the argument's low bits. -/
theorem extractLsb'_newBits_same {width shift : Nat} (h : shift + width ≤ 8) (arg : Half) :
    (newBits width shift arg).extractLsb' shift width = arg.extractLsb' 0 width := by
  ext k hk
  have hbyte : shift + k < 8 := by omega
  rw [BitVec.getElem_extractLsb', BitVec.getElem_extractLsb', getLsbD_newBits]
  simp [hk, hbyte]

/-- Outside their own field the new bits are 0. -/
theorem extractLsb'_newBits_other {width shift lo n : Nat} (h : lo + n ≤ shift ∨ shift + width ≤ lo) (arg : Half) :
    (newBits width shift arg).extractLsb' lo n = 0#n := by
  ext k hk
  have hout : shift ≤ lo + k → ¬ lo + k - shift < width := by omega
  simpa [getLsbD_newBits] using fun _ hs hin => absurd hin (hout hs)

/-! ### The read-modify-writes -/

/-- A read-modify-write run to its response (R111): only the last step responds or writes STATUS, and the device then holds
the byte of the third transaction. -/
theorem exec_rmw_responds {i : Instr} {addr : RegAddr} {pm nb cur : Byte} {s : State} {b0 b2 : List Byte}
    (hscript : ∀ u, scriptOf i u = rmw addr pm nb u) (hresult : ∀ u, resultOf i u = 0#32)
    (hw : i.wellFormed = true) (htr : s.trace = []) (hseq : s.seq = 0#2)
    (h0 : replyAfter 0 s = .ok b0) (h1 : replyAfter 1 s = .ok [cur]) (h2 : replyAfter 2 s = .ok b2) :
    ∃ s1 s2 s3 t, exec i s = .next s1 ∧ exec i s1 = .next s2 ∧ exec i s2 = .next s3 ∧ exec i s3 = .next t ∧
      (∀ u ∈ [s1, s2, s3], u.rspValid = false ∧ u.status = s.status) ∧ t.rspValid = true ∧
      t.status = statusBits (codeOf i) ∧ t.result = 0#32 ∧
      Memory.read t.device addr.toNat = some (rmwByte cur pm nb) ∧
      t.trace = [⟨.write1 (cmd addr), .ok []⟩, ⟨.read 1, .ok [cur]⟩,
        ⟨.write2 (cmd addr) (rmwByte cur pm nb), .ok []⟩] := by
  have hs := Underway.start hw htr hseq
  obtain ⟨e0, e1, -⟩ := exec_rmw_read hscript hs h0 h1
  obtain ⟨e2, e3⟩ := exec_rmw_write hscript hs h0 h1 h2
  refine ⟨_, _, _, _, e0, e1, e2, e3, ?_, ?_⟩
  · simp [afterRmw, afterRmwRead, afterWrite, afterRead, afterSelect, takeReply_eq]
  · rw [respond_afterRmw _ _ htr hseq, hresult]
    exact ⟨rfl, rfl, rfl, Memory.read_write_same _ _ _, rfl⟩

/-- Settles O30: the byte is read off the preserve mask 0x0B and the one new bit. -/
theorem setGainWritesTiming : Obligations.SetGainWritesTiming := by
  intro s high b0 b2 cur hhigh htr hseq h0 h1 h2
  obtain ⟨s1, s2, s3, t, e0, e1, e2, e3, -, hrsp, hstatus, -, hdev, htrace⟩ :=
    exec_rmw_responds (i := .setGain high) (fun _ => rfl) (fun _ => rfl) ((argIsBool_iff high).mpr hhigh) htr hseq h0 h1 h2
  refine ⟨s1, s2, s3, t, e0, e1, e2, e3, hrsp, hstatus, _, hdev, htrace, ?_⟩
  simp only [getLsbD_rmwByte, gainBits, getLsbD_newBits]
  simp [gainPreserve]

/-- Settles O31: the byte is read off the preserve mask 0x18 and the two new bits. -/
theorem setIntegWritesTiming : Obligations.SetIntegWritesTiming := by
  intro s m b0 b2 cur hm htr hseq h0 h1 h2
  obtain ⟨s1, s2, s3, t, e0, e1, e2, e3, -, hrsp, hstatus, -, hdev, htrace⟩ :=
    exec_rmw_responds (i := .setInteg m) (fun _ => rfl) (fun _ => rfl) ((argAtMost_iff 3 m).mpr hm) htr hseq h0 h1 h2
  refine ⟨s1, s2, s3, t, e0, e1, e2, e3, hrsp, hstatus, _, hdev, htrace, ?_⟩
  simp only [getLsbD_rmwByte, integBits, getLsbD_newBits]
  simp [integPreserve]

/-- Settles O32: the byte is read off the preserve mask 0x17 and the one new bit. -/
theorem setManualWritesTiming : Obligations.SetManualWritesTiming := by
  intro s e b0 b2 cur he htr hseq h0 h1 h2
  obtain ⟨s1, s2, s3, t, e0, e1, e2, e3, -, hrsp, hstatus, -, hdev, htrace⟩ :=
    exec_rmw_responds (i := .setManual e) (fun _ => rfl) (fun _ => rfl) ((argIsBool_iff e).mpr he) htr hseq h0 h1 h2
  refine ⟨s1, s2, s3, t, e0, e1, e2, e3, hrsp, hstatus, _, hdev, htrace, ?_⟩
  simp only [getLsbD_rmwByte, manualBits, getLsbD_newBits]
  simp [manualPreserve]

/-- The fields of the byte SET_PERSIST writes (R135). -/
theorem persistByte_fields (cur : Byte) (c : Half) :
    (rmwByte cur persistPreserve (persistBits c)).extractLsb' 0 4 = c.extractLsb' 0 4 ∧
    (rmwByte cur persistPreserve (persistBits c)).extractLsb' 4 2 = cur.extractLsb' 4 2 ∧
    (rmwByte cur persistPreserve (persistBits c)).extractLsb' 6 2 = 0#2 :=
  ⟨(extractLsb'_rmwByte_replaced rfl).trans (extractLsb'_newBits_same (by decide) _),
    extractLsb'_rmwByte_kept rfl (extractLsb'_newBits_other (by decide) _),
    (extractLsb'_rmwByte_replaced rfl).trans (extractLsb'_newBits_other (by decide) _)⟩

/-- Settles O34: the preserve mask 0x30 keeps bits 5:4 alone, and the new bits lie in bits 3:0. -/
theorem setPersistWritesInterrupt : Obligations.SetPersistWritesInterrupt := by
  intro s c b0 b2 cur hc htr hseq h0 h1 h2
  obtain ⟨s1, s2, s3, t, e0, e1, e2, e3, -, hrsp, hstatus, -, hdev, htrace⟩ :=
    exec_rmw_responds (i := .setPersist c) (fun _ => rfl) (fun _ => rfl) ((argAtMost_iff 15 c).mpr hc) htr hseq h0 h1 h2
  exact ⟨s1, s2, s3, t, e0, e1, e2, e3, hrsp, hstatus, _, hdev, htrace, persistByte_fields cur c⟩

/-- The fields of the byte SET_INTMODE writes (R136). -/
theorem modeByte_fields (cur : Byte) (m : Half) :
    (rmwByte cur modePreserve (modeBits m)).extractLsb' 0 4 = cur.extractLsb' 0 4 ∧
    (rmwByte cur modePreserve (modeBits m)).extractLsb' 4 2 = m.extractLsb' 0 2 ∧
    (rmwByte cur modePreserve (modeBits m)).extractLsb' 6 2 = 0#2 :=
  ⟨extractLsb'_rmwByte_kept rfl (extractLsb'_newBits_other (by decide) _),
    (extractLsb'_rmwByte_replaced rfl).trans (extractLsb'_newBits_same (by decide) _),
    (extractLsb'_rmwByte_replaced rfl).trans (extractLsb'_newBits_other (by decide) _)⟩

/-- Settles O35: the preserve mask 0x0F keeps bits 3:0 alone, the new bits lie in bits 5:4, and the code of mode 2 comes with
the response. -/
theorem setIntModeWritesInterrupt : Obligations.SetIntModeWritesInterrupt := by
  intro s m b0 b2 cur hm htr hseq h0 h1 h2
  obtain ⟨s1, s2, s3, t, e0, e1, e2, e3, hbefore, hrsp, hstatus, hresult, hdev, htrace⟩ :=
    exec_rmw_responds (i := .setIntMode m) (fun _ => rfl) (fun _ => rfl) ((argAtMost_iff 3 m).mpr hm) htr hseq h0 h1 h2
  rw [statusBits_codeOf] at hstatus
  exact ⟨s1, s2, s3, t, e0, e1, e2, e3, hbefore, hrsp, by simpa using hstatus, hresult, _, hdev, htrace,
    modeByte_fields cur m⟩

end Sys2Proof.Machine
end

section
/-! PROOFS. The field decoders (spec/42_decoders.md): each decodes from a read-modify-write byte what its encoder wrote there
and the other fields as they were (R173), since masks and new bits are made of whole fields; and the three decoding reads
(R170 to R172) run to their response. -/

namespace Sys2Proof.Machine

/-! ### The rows of R91's table, by their encoders -/

theorem rmwOf_setGain {high : Half} (h : argIsBool high = true) :
    rmwOf (.setGain high) = some (timingReg, gainPreserve, gainBits high) := by
  rw [gainBits_eq h]
  rfl

theorem rmwOf_setInteg {m : Half} (h : argAtMost 3 m = true) :
    rmwOf (.setInteg m) = some (timingReg, integPreserve, integBits m) := by
  rw [integBits, newBits_eq_setWidth h (by decide), BitVec.shiftLeft_zero]
  rfl

theorem rmwOf_setManual {enable : Half} (h : argIsBool enable = true) :
    rmwOf (.setManual enable) = some (timingReg, manualPreserve, manualBits enable) := by
  rw [manualBits_eq h]
  rfl

theorem rmwOf_setPersist {cycles : Half} (h : argAtMost 15 cycles = true) :
    rmwOf (.setPersist cycles) = some (interruptReg, persistPreserve, persistBits cycles) := by
  rw [persistBits, newBits_eq_setWidth h (by decide), BitVec.shiftLeft_zero]
  rfl

theorem rmwOf_setIntMode {m : Half} (h : argAtMost 3 m = true) :
    rmwOf (.setIntMode m) = some (interruptReg, modePreserve, modeBits m) := by
  rw [modeBits, newBits_eq_setWidth h (by decide)]
  rfl

/-! ### Mask and new bits are disjoint -/

/-- Where the preserve mask clears a field, it shares no bit with the new bits of that field. -/
theorem and_newBits_eq_zero {pm : Byte} {width shift : Nat} (hpm : pm.extractLsb' shift width = 0#width) (arg : Half) :
    pm &&& newBits width shift arg = 0#8 := by
  apply BitVec.eq_of_getLsbD_eq
  intro k _
  rw [BitVec.getLsbD_and, getLsbD_newBits, BitVec.getLsbD_zero]
  by_cases hfield : shift ≤ k ∧ k - shift < width
  · obtain ⟨hle, hlt⟩ := hfield
    have hbit : pm.getLsbD k = false := by
      simpa [hlt, Nat.add_sub_cancel' hle] using congrArg (·.getLsbD (k - shift)) hpm
    rw [hbit, Bool.false_and]
  · simp only [not_and] at hfield
    simp +contextual [hfield]

/-- In every row of R91's table the preserve mask and the new bits are disjoint. -/
theorem preserve_and_new_eq_zero {i : Instr} {addr : RegAddr} {pm nb : Byte} (hw : i.wellFormed = true)
    (hi : rmwOf i = some (addr, pm, nb)) : pm &&& nb = 0#8 := by
  cases i with
  | readReg | writeReg | setPower | setThresh | clearInt | readChipId | readChannels | readTiming => simp [rmwOf] at hi
  | setGain => cases (rmwOf_setGain hw).symm.trans hi; exact and_newBits_eq_zero rfl _
  | setInteg => cases (rmwOf_setInteg hw).symm.trans hi; exact and_newBits_eq_zero rfl _
  | setManual => cases (rmwOf_setManual hw).symm.trans hi; exact and_newBits_eq_zero rfl _
  | setPersist => cases (rmwOf_setPersist hw).symm.trans hi; exact and_newBits_eq_zero rfl _
  | setIntMode => cases (rmwOf_setIntMode hw).symm.trans hi; exact and_newBits_eq_zero rfl _

/-- New bits outside the preserve mask leave what the mask covers (R12). -/
theorem rmwByte_and_preserve {pm nb : Byte} (h : pm &&& nb = 0#8) (cur : Byte) : rmwByte cur pm nb &&& pm = cur &&& pm := by
  rw [rmwByte, BitVec.and_comm, BitVec.and_or_distrib_left, h, BitVec.or_zero, BitVec.and_comm, BitVec.and_assoc,
    BitVec.and_self]

/-! ### The fields of the byte written -/

/-- The encoder's own field of the byte it writes holds the argument, where that fits (R173). -/
theorem toNat_field_rmwByte {pm : Byte} {k width shift : Nat} {arg : Half} (hfit : argAtMost k arg = true)
    (hk : k < 2 ^ width) (hplace : shift + width ≤ 8) (hpm : pm.extractLsb' shift width = 0#width) (cur : Byte) :
    ((rmwByte cur pm (newBits width shift arg)).extractLsb' shift width).toNat = arg.toNat := by
  have hlt : arg.toNat < 2 ^ width := ((argAtMost_iff k arg).mp hfit).trans_lt hk
  rw [extractLsb'_rmwByte_replaced hpm, extractLsb'_newBits_same hplace, BitVec.extractLsb'_toNat, Nat.shiftRight_zero,
    Nat.mod_eq_of_lt hlt]

/-- A field that the mask covers and that lies beside the encoder's own decodes as before (R173). -/
theorem field_rmwByte_kept {pm : Byte} {width shift lo n : Nat} (hpm : pm.extractLsb' lo n = BitVec.allOnes n)
    (hbeside : lo + n ≤ shift ∨ shift + width ≤ lo) (cur : Byte) (arg : Half) :
    (rmwByte cur pm (newBits width shift arg)).extractLsb' lo n = cur.extractLsb' lo n :=
  extractLsb'_rmwByte_kept hpm (extractLsb'_newBits_other hbeside arg)

/-- Settles O10: the encoder's own field is cleared by the mask and filled by the new bits, every other one is covered by the
mask and beside them. -/
theorem fieldsRoundTrip : Obligations.FieldsRoundTrip := by
  refine ⟨fun b => ⟨rfl, rfl, rfl, rfl, rfl, rfl⟩, toNat_u16le, fun cur i addr pm nb hw hi => ?_⟩
  have hdisjoint := preserve_and_new_eq_zero hw hi
  refine ⟨hdisjoint, rmwByte_and_preserve hdisjoint cur, ?gain, ?integ, ?manual, ?persist, ?mode⟩
  case gain =>
    rintro high rfl
    cases (rmwOf_setGain hw).symm.trans hi
    exact ⟨toNat_field_rmwByte hw (by decide) (by decide) rfl cur, field_rmwByte_kept rfl (by decide) cur high,
      field_rmwByte_kept rfl (by decide) cur high⟩
  case integ =>
    rintro m rfl
    cases (rmwOf_setInteg hw).symm.trans hi
    exact ⟨toNat_field_rmwByte hw (by decide) (by decide) rfl cur, field_rmwByte_kept rfl (by decide) cur m,
      field_rmwByte_kept rfl (by decide) cur m⟩
  case manual =>
    rintro enable rfl
    cases (rmwOf_setManual hw).symm.trans hi
    exact ⟨toNat_field_rmwByte hw (by decide) (by decide) rfl cur, field_rmwByte_kept rfl (by decide) cur enable,
      field_rmwByte_kept rfl (by decide) cur enable⟩
  case persist =>
    rintro cycles rfl
    cases (rmwOf_setPersist hw).symm.trans hi
    exact ⟨toNat_field_rmwByte hw (by decide) (by decide) rfl cur, field_rmwByte_kept rfl (by decide) cur cycles⟩
  case mode =>
    rintro m rfl
    cases (rmwOf_setIntMode hw).symm.trans hi
    exact ⟨toNat_field_rmwByte hw (by decide) (by decide) rfl cur, field_rmwByte_kept rfl (by decide) cur m⟩

/-! ### The decoding reads -/

/-- An operation that is one register read, run to its response (R64, R94): RESULT is its layout of the bytes read. -/
theorem exec_memRead_completes {i : Instr} {addr : RegAddr} {n : Nat} {layout : List Byte → Word} {s : State}
    {b0 bytes : List Byte} (hscript : ∀ u, scriptOf i u = memRead addr n) (hcode : codeOf i = .ok)
    (hresult : ∀ u, resultOf i u = layout (answerBytes u)) (hw : i.wellFormed = true)
    (htr : s.trace = []) (hseq : s.seq = 0#2)
    (h0 : replyAfter 0 s = .ok b0) (h1 : replyAfter 1 s = .ok bytes) (hlen : bytes.length = n) :
    ∃ s1 s2 t, exec i s = .next s1 ∧ exec i s1 = .next s2 ∧ exec i s2 = .next t ∧
      t = { takeReply (takeReply s) with
            seq := 2#2, busy := false, status := 0#3, result := layout bytes, rspValid := true, inFlight := none,
            trace := [⟨.write1 (cmd addr), .ok []⟩, ⟨.read n, .ok bytes⟩], select := addr } := by
  obtain ⟨e0, e1, e2⟩ := exec_memRead hscript (.start hw htr hseq) h0 h1 hlen
  refine ⟨_, _, _, e0, e1, e2, ?_⟩
  rw [respond_afterMemRead _ _ htr hseq, hcode, hresult, answerBytes_of_trace rfl]
  rfl

/-- Settles O37: READ_CHIPID is one read of ID, and its layout is the upper nibble. -/
theorem readChipIdCompletes : Obligations.ReadChipIdCompletes := by
  intro s b0 b htr hseq h0 h1
  rw [← chipIdResult_singleton]
  exact exec_memRead_completes (i := .readChipId) (addr := idReg) (fun _ => rfl) rfl (fun _ => rfl) rfl htr hseq h0 h1 rfl

/-- The channels as bytes, the last one read on top (R66, R171). -/
theorem channelsResult_bytes (c0 c1 c2 c3 : Byte) : channelsResult [c0, c1, c2, c3] = (c3 ++ c2) ++ (c1 ++ c0) := rfl

/-- Settles O38: READ_CHANNELS is one read of the four channel registers. -/
theorem readChannelsCompletes : Obligations.ReadChannelsCompletes := by
  intro s b0 c0 c1 c2 c3 htr hseq h0 h1
  rw [← channelsResult_bytes]
  exact exec_memRead_completes (i := .readChannels) (addr := data0LowReg) (fun _ => rfl) rfl (fun _ => rfl) rfl htr hseq
    h0 h1 rfl

/-- The byte read and its decoded fields above it (R172). -/
theorem timingResult_singleton (b : Byte) :
    timingResult [b] = b.setWidth 32 ||| ((b.extractLsb' 4 1).setWidth 32 <<< 8) |||
      ((b.extractLsb' 0 2).setWidth 32 <<< 9) ||| ((b.extractLsb' 3 1).setWidth 32 <<< 11) := rfl

/-- Settles O39: READ_TIMING is one read of TIMING. -/
theorem readTimingCompletes : Obligations.ReadTimingCompletes := by
  intro s b0 b htr hseq h0 h1
  rw [← timingResult_singleton]
  exact exec_memRead_completes (i := .readTiming) (addr := timingReg) (fun _ => rfl) rfl (fun _ => rfl) rfl htr hseq
    h0 h1 rfl

end Sys2Proof.Machine
end

section
/-! PROOFS. How an operation ends (spec/60_exceptions.md): each end is one `abort` or the script's own `respond`. From what
`exec` and `step` can do follow the two rejections before any transaction (R193, R194), the failed transaction and its causes
(R190, R192), the one code of a response (R197), and that the response is the fall of BUSY (R195). -/

namespace Sys2Proof.Machine

/-! ### A request rejected at once -/

/-- A held request whose first step is an abort: the acceptance and the response, with nothing at the transport between. -/
theorem request_rejected_in_two_steps {s : State} {w : Word} {code : Code} (hb : s.busy = false)
    (hh : s.host = [.request w]) (hreject : ∀ u : State, u.req = w → busyStep u = .next (abort code u)) :
    ∃ u t, step s = .next u ∧ step u = .next t ∧ t.rspValid = true ∧ rspStatus t = statusBits code ∧ rspResult t = 0#32 ∧
      t.busy = false ∧ t.trace = [] ∧ t.device = s.device ∧ t.select = s.select ∧ t.replies = s.replies ∧
      t.draws = s.draws := by
  have haccept := acceptanceLatchesRequest.1 s w [] hb (.inl hh)
  refine ⟨_, _, haccept, (step_of_busy_alone rfl rfl).trans (hreject _ rfl), ?_⟩
  exact ⟨rfl, rfl, rfl, rfl, rfl, rfl, rfl, rfl, rfl⟩

/-- Settles O19: the busy block's step is the abort with IllegalRequest, and so is the one after the acceptance. -/
theorem illegalWordEndsAtOnce : Obligations.IllegalWordEndsAtOnce := by
  refine ⟨fun s why hb hn hd => ?_, fun s w why hb hh hd => ?_⟩
  · rw [step_of_busy hn hb, busyStep_illegal (by rw [hostWaits_req, hd])]
    rfl
  · exact request_rejected_in_two_steps (code := .illegalRequest) hb hh fun u hu => busyStep_illegal (by rw [hu, hd])

/-- Settles O20: the operation's first step is the abort with InvalidArgument. -/
theorem outOfRangeEndsAtOnce : Obligations.OutOfRangeEndsAtOnce := by
  refine ⟨fun i s hw => exec_illegal s hw, fun s i hb hh hw => ?_⟩
  refine request_rejected_in_two_steps (code := .invalidArgument) hb hh fun u hu => ?_
  rw [busyStep_op (by rw [hu, decodeOfEncode i]), exec_illegal u hw]

/-! ### A failed transaction -/

/-- Settles O21: the next step is the abort with TransportError; that only the last one failed is the invariant. -/
theorem transportErrorEndsOperation : Obligations.TransportErrorEndsOperation := by
  refine ⟨fun i s pre f hw htr => exec_failed hw ((failed_iff s).mpr ⟨pre, f, htr⟩), fun s pre x hs htr y hy => ?_⟩
  have hlast := hs.failureLast
  rw [htr, List.dropLast_concat] at hlast
  exact of_decide_eq_true (hlast y hy)

/-! ### The code of a response -/

/-- The code of an operation's response, in the order of R197. -/
theorem exec_status_of_response {i : Instr} {s t : State} (h : exec i s = .next t) (hr : t.rspValid = true) :
    t.status = if i.wellFormed = false then 2#3 else if failed s = true then 1#3
      else if i = .setIntMode 2#16 then 3#3 else 0#3 := by
  obtain ⟨hw, rfl⟩ | ⟨hw, hf, rfl⟩ | ⟨-, -, a, -, rfl⟩ | ⟨hw, hf, -, rfl⟩ := exec_cases h
  · simp [hw, statusBits]
  · simp [hw, hf, statusBits]
  · simp at hr
  · simp [hw, hf, statusBits_codeOf]

/-- Code 1 comes from the abort after a failed transaction alone. -/
theorem exec_transportError_iff {i : Instr} {s t : State} :
    (exec i s = .next t ∧ t.rspValid = true ∧ t.status = 1#3) ↔
      i.wellFormed = true ∧ failed s = true ∧ t = abort .transportError s := by
  constructor
  · rintro ⟨h, hr, hst⟩
    obtain ⟨-, rfl⟩ | ⟨hw, hf, rfl⟩ | ⟨-, -, a, -, rfl⟩ | ⟨-, -, -, rfl⟩ := exec_cases h
    · simp [statusBits] at hst
    · exact ⟨hw, hf, rfl⟩
    · simp at hr
    · rw [respond_status, statusBits_codeOf] at hst
      split at hst <;> simp at hst
  · rintro ⟨hw, hf, rfl⟩
    exact ⟨exec_failed hw hf, rfl, rfl⟩

/-- An Err is the transport's own, or a read of another count (R61). -/
theorem err_causes_of_judge {f : Frame} {r : Reply} (h : judge f r = some .err) :
    (∃ c d e, r = .err c d e) ∨ ∃ n bytes, f = .read n ∧ r = .ok bytes ∧ bytes.length ≠ n := by
  cases r with
  | silent => simp [judge] at h
  | err c d e => exact .inl ⟨c, d, e, rfl⟩
  | ok bytes =>
    cases f with
    | write1 | write2 => simp [judge] at h
    | read n =>
      refine .inr ⟨n, bytes, rfl, rfl, fun hlen => ?_⟩
      simp [judge_read_ok hlen] at h

/-- Where an operation does not respond, an Err of the transport fails the transaction due. -/
theorem exec_trace_of_err {i : Instr} {s t : State} {c d : Bool} {e : RegAddr} (h : exec i s = .next t)
    (hr : t.rspValid = false) (hrep : nextReply s = .err c d e) : ∃ f, t.trace = s.trace ++ [⟨f, .err⟩] := by
  obtain ⟨code, r, rfl⟩ | ⟨a, -, rfl⟩ := exec_respond_or_transact h
  · simp at hr
  · exact ⟨a.frame, by simp [transact_err (a := a) (s := s) (by rw [hrep, judge_err])]⟩

/-- Settles O22: the code by `exec_transportError_iff`, the causes by what `judge` makes of a reply. -/
theorem transportErrorCauses : Obligations.TransportErrorCauses := by
  refine ⟨fun i s => ?_, fun i s t h hr hst => ?_, fun i s t f h htr => ?_,
    fun i s t c d e h hr hrep => exec_trace_of_err h hr hrep, fun i s t bytes x h hrep htr n hx hlen => ?_⟩
  · simp only [exec_transportError_iff, failed_iff, exists_and_left, exists_eq, and_true]
  · obtain ⟨-, -, ht⟩ := exec_transportError_iff.mp ⟨h, hr, hst⟩
    exact ht
  · obtain ⟨hj, -⟩ := exec_select_of_trace_append h htr
    exact err_causes_of_judge hj
  · obtain ⟨hj, -⟩ := exec_select_of_trace_append h htr
    rw [hx, hrep, judge_read_wrong_count hlen] at hj
    exact (Option.some.inj hj).symm

/-- Settles O23: an illegal word's abort comes first, then the order of `exec_status_of_response`. -/
theorem outcomePriority : Obligations.OutcomePriority := by
  refine ⟨fun s t hb hn h hr => ⟨fun why hd => ?_, fun i hd => ?_⟩, .unusedFieldNonzero, by decide⟩
  · rw [step_of_busy hn hb, busyStep_illegal (by rw [hostWaits_req, hd])] at h
    cases h; rfl
  · rw [step_of_busy_op hb hn hd] at h
    have hfailed := failed_iff (hostWaits s)
    rw [hostWaits_trace] at hfailed
    rw [exec_status_of_response h hr]
    refine ⟨fun hw => by simp [hw], fun hw herr => by simp [hw, hfailed.mpr herr], fun hw hno => ?_⟩
    have hf : ¬ failed (hostWaits s) = true := by
      rw [hfailed]
      rintro ⟨pre, f, htr⟩
      exact hno pre f htr
    rw [if_neg (by simp [hw]), if_neg hf]
    exact ⟨fun hi => if_pos hi, fun hi => if_neg hi⟩

/-! ### The response -/

/-- A busy block responds exactly where it ends the operation: a transaction step does neither. -/
theorem busyStep_rspValid_iff {s t : State} (hb : s.busy = true) (h : busyStep s = .next t) :
    t.rspValid = true ↔ t.busy = false := by
  obtain ⟨code, rfl⟩ | ⟨i, a, -, -, -, rfl⟩ | ⟨i, rfl⟩ := busyStep_cases h <;> simp [hb]

/-- Settles O24: by the kind of step. -/
theorem responseExactlyAtTheEnd : Obligations.ResponseExactlyAtTheEnd := by
  intro s t h
  obtain ⟨rest, hr, rfl⟩ | ⟨hn, hb, h⟩ | ⟨hn, hb, rfl⟩ := step_cases h
  · exact ⟨fun hn => absurd hr (hn rest), fun _ => rfl, rfl, rfl⟩
  · have hend := busyStep_rspValid_iff (by rw [hostWaits_busy, hb]) h
    exact ⟨fun _ => by simp [hb, hend], fun ⟨rest, hr⟩ => absurd hr (hn rest), rfl, rfl⟩
  · exact ⟨fun _ => by simp [hb, idleStep_rspValid], fun ⟨rest, hr⟩ => absurd hr (hn rest), rfl, rfl⟩

end Sys2Proof.Machine
end

section
/-! PROOFS. A threshold half updated (spec/60_exceptions.md R198, spec/70_reset_and_hazards.md R225): the second of two blind
writes fails, and the device keeps the first byte and takes the second or not (R77). -/

namespace Sys2Proof.Machine

/-- Two blind writes, the second one answered Err: the response comes next, and the record holds what the draw of the data
byte says. -/
theorem exec_memWrite_append_err {i : Instr} {lo hi : RegAddr} {u v : Byte} {s : State} {b0 : List Byte} {c d : Bool}
    {e : RegAddr} (hscript : ∀ w, scriptOf i w = memWrite lo u ++ memWrite hi v) (hs : Underway i [] s)
    (h0 : replyAfter 0 s = .ok b0) (h1 : replyAfter 1 s = .err c d e) :
    ∃ s2, exec i s = .next (afterWrite lo u s) ∧ exec i (afterWrite lo u s) = .next s2 ∧
      exec i s2 = .next (abort .transportError s2) ∧
      s2.trace = [⟨.write2 (cmd lo) u, .ok []⟩, ⟨.write2 (cmd hi) v, .err⟩] ∧
      s2.device = if d = true then Memory.write (Memory.write s.device lo.toNat u) hi.toNat v
        else Memory.write s.device lo.toNat u := by
  have h1 : nextReply (afterWrite lo u s) = .err c d e := (replyAfter_afterWrite lo u s 0).trans h1
  obtain ⟨e0, u1⟩ := hs.write (addr := lo) (v := u) (by rw [hscript]; rfl) h0
  obtain ⟨e1, e2, htr, -⟩ := u1.err (a := plain (.write2 (cmd hi) v)) (by rw [hscript]; rfl) (by rw [h1, judge_err])
  refine ⟨_, e0, e1, e2, htr, ?_⟩
  rw [transact_device, h1]
  exact deviceTakes_write2 hi v _ _

/-- The record after a first byte and, by the draw, a second one at another register. -/
theorem read_half_written {m m' : List Host.Cell} {lo hi : Nat} {u v : Byte} {d : Bool} (hne : hi ≠ lo)
    (hm' : m' = if d = true then Memory.write (Memory.write m lo u) hi v else Memory.write m lo u) :
    Memory.read m' lo = some u ∧
      Memory.read m' hi = (if d = true then some v else Memory.read m hi) ∧
      ∀ a, a ≠ lo → a ≠ hi → Memory.read m' a = Memory.read m a := by
  subst hm'
  cases d with
  | true =>
    refine ⟨?_, Memory.read_write_same _ hi v, fun a hlo hhi => ?_⟩
    · exact (Memory.read_write_other _ hi lo v hne.symm).trans (Memory.read_write_same m lo u)
    · exact (Memory.read_write_other _ hi a v hhi).trans (Memory.read_write_other m lo a u hlo)
  | false =>
    exact ⟨Memory.read_write_same m lo u, Memory.read_write_other m lo hi u hne,
      fun a hlo _ => Memory.read_write_other m lo a u hlo⟩

/-- The two registers of a threshold pair are distinct. -/
theorem threshMsbReg_ne_threshLsbReg (sel : ThreshPair) : (threshLsbReg sel + 1#4).toNat ≠ (threshLsbReg sel).toNat := by
  cases sel <;> decide

/-- Settles O41: the steps are those of two blind writes of which the second fails, at the pair's registers. -/
theorem setThreshHalfUpdated : Obligations.SetThreshHalfUpdated := by
  intro s sel value b0 c d e lo hi htr hseq hlow hhigh h0 h1
  obtain ⟨rfl, rfl⟩ : lo = threshLsbReg sel ∧ hi = threshLsbReg sel + 1#4 := by
    cases sel with
    | low => exact hlow rfl
    | high => exact hhigh rfl
  obtain ⟨s2, e0, e1, e2, htr2, hdev⟩ :=
    exec_memWrite_append_err (i := .setThresh sel value) (fun _ => rfl) (.start rfl htr hseq) h0 h1
  exact ⟨_, s2, _, e0, e1, e2, rfl, rfl, rfl, htr2, read_half_written (threshMsbReg_ne_threshLsbReg sel) hdev⟩

end Sys2Proof.Machine
end

section
/-! PROOFS. The host while the block works (spec/70_reset_and_hazards.md R227): a busy block's step reads nothing of the
host's coming events, so the step with them is the step without them. -/

namespace Sys2Proof.Machine

/-- The state with other coming events of the host put in. -/
def putHost (events : List HostEvent) (s : State) : State := { s with host := events }

section PutHost

variable (events : List HostEvent) (s : State)

theorem takeReply_putHost : takeReply (putHost events s) = putHost events (takeReply s) := by
  rw [takeReply_eq, takeReply_eq]
  rfl

theorem deviceTakes_putHost (f : Frame) (r : Reply) :
    deviceTakes f r (putHost events s) = putHost events (deviceTakes f r s) := by
  cases f <;> rfl

theorem transact_putHost (a : Action) : transact a (putHost events s) = putHost events (transact a s) := by
  have hn : nextReply (putHost events s) = nextReply s := nextReply_congr rfl rfl
  rcases hj : judge a.frame (nextReply s) with _ | (bytes | _)
  · rw [transact_silent hj, transact_silent (hn ▸ hj), takeReply_putHost]; rfl
  · rw [transact_ok hj, transact_ok (hn ▸ hj), takeReply_putHost, hn, ← deviceTakes_putHost]; rfl
  · rw [transact_err hj, transact_err (hn ▸ hj), takeReply_putHost, hn, ← deviceTakes_putHost]; rfl

theorem resultOf_putHost (i : Instr) : resultOf i (putHost events s) = resultOf i s := by
  cases i <;> rfl

end PutHost

/-- A meaning takes the same course whatever the host is about to do. -/
theorem exec_putHost (events : List HostEvent) {i : Instr} {s t : State} (h : exec i s = .next t) :
    exec i (putHost events s) = .next (putHost events t) := by
  have hscript : scriptOf i (putHost events s) = scriptOf i s := scriptOf_congr rfl i
  obtain ⟨hw, rfl⟩ | ⟨hw, hf, rfl⟩ | ⟨hw, hf, a, ha, rfl⟩ | ⟨hw, hf, ha, rfl⟩ := exec_cases h
  · exact exec_illegal _ hw
  · exact exec_failed (s := putHost events s) hw hf
  · rw [← hscript] at ha
    rw [exec_transact (s := putHost events s) hw hf ha, transact_putHost]
  · rw [← hscript] at ha
    rw [exec_respond (s := putHost events s) hw hf ha, resultOf_putHost]
    rfl

theorem busyStep_putHost (events : List HostEvent) {s t : State} (h : busyStep s = .next t) :
    busyStep (putHost events s) = .next (putHost events t) := by
  cases hd : decode s.req with
  | op i =>
    rw [busyStep_op hd] at h
    rw [busyStep_op (s := putHost events s) hd, exec_putHost events h]
  | illegal why =>
    rw [busyStep_illegal hd] at h
    obtain rfl := Host.Outcome.next.inj h
    exact busyStep_illegal (s := putHost events s) hd

/-- A busy block's step leaves REQ and the host as they are. -/
theorem busyStep_req_host {s t : State} (h : busyStep s = .next t) : t.req = s.req ∧ t.host = s.host := by
  obtain ⟨code, rfl⟩ | ⟨i, a, -, -, -, rfl⟩ | ⟨i, rfl⟩ := busyStep_cases h <;> simp

/-- A busy block presented with a request steps as one with nothing presented; what the host presents is waiting, or has
been dropped (R227). -/
theorem step_of_busy_presented {s t : State} {w : Word} (hb : s.busy = true) (hp : presented s = some w)
    (h : step s = .next t) :
    t.host = (hostWaits s).host ∧ t.req = s.req ∧ step { s with host := [] } = .next { t with host := [] } := by
  rw [step_of_busy (noResetNow_of_presented hp) hb] at h
  obtain ⟨hreq, hhost⟩ := busyStep_req_host h
  obtain ⟨rest, hwaits⟩ := hostWaits_eq s
  have halone := busyStep_putHost [] h
  rw [hwaits] at halone
  exact ⟨hhost, hreq.trans (hostWaits_req s), (step_of_busy_alone (s := { s with host := [] }) hb rfl).trans halone⟩

/-- Settles O17: a held request waits, an offered one is dropped, and the step is the one taken without either. -/
theorem busyBlockLeavesRequestPresented : Obligations.BusyBlockLeavesRequestPresented := by
  refine ⟨fun s t w rest hb hh h => ?_, fun s t w rest hb hh h => ?_⟩
  · obtain ⟨hhost, hreq, halone⟩ := step_of_busy_presented (w := w) hb (by simp [presented, hh]) h
    exact ⟨by rw [hhost, hostWaits, hh]; exact hh, hreq, halone⟩
  · obtain ⟨hhost, hreq, halone⟩ := step_of_busy_presented (w := w) hb (by simp [presented, hh]) h
    exact ⟨by rw [hhost, hostWaits, hh], hreq, halone⟩

end Sys2Proof.Machine
end

section
/-! PROOFS. A reset (spec/70_reset_and_hazards.md R220, R221): it leaves of the device what the transaction in flight leaves
there, its outcome drawn by the next reply (R77). -/

namespace Sys2Proof.Machine

/-! ### The device over a reset -/

/-- With nothing in flight a reset touches neither the device nor the transport. -/
theorem blockReset_of_not_inFlight {s : State} (h : s.inFlight = none) :
    (blockReset s).device = s.device ∧ (blockReset s).select = s.select ∧ (blockReset s).replies = s.replies ∧
      (blockReset s).draws = s.draws := by
  have hkept : abandonInFlight s = s := by rw [abandonInFlight, h]
  rw [blockReset_eq, hkept]
  exact ⟨rfl, rfl, rfl, rfl⟩

/-- With a transaction in flight a reset leaves the record and the selection that the frame leaves at the device. -/
theorem blockReset_of_inFlight {s : State} {f : Frame} (h : s.inFlight = some f) :
    (blockReset s).device = (deviceTakes f (nextReply s) s).device ∧
      (blockReset s).select = (deviceTakes f (nextReply s) s).select := by
  have habandon : abandonInFlight s = deviceTakes f (nextReply s) (takeReply s) := by rw [abandonInFlight, h]
  rw [blockReset_eq, habandon]
  cases f <;> simp [resetRegisters, deviceTakes]

/-- A two-byte write was taken or was not. -/
theorem deviceTakes_write2_device_cases (c v : Byte) (r : Reply) (s : State) :
    (deviceTakes (.write2 c v) r s).device = s.device ∨
      (deviceTakes (.write2 c v) r s).device = Memory.write s.device (selectedRegister c).toNat v := by
  rw [deviceTakes_device_of_store rfl]
  split
  · exact .inr rfl
  · exact .inl rfl

/-- A register select left the selection or moved it. -/
theorem deviceTakes_select_cases (a : RegAddr) (r : Reply) (s : State) :
    (deviceTakes (.write1 (cmd a)) r s).select = s.select ∨ (deviceTakes (.write1 (cmd a)) r s).select = a := by
  rw [deviceTakes_select_register (.inl rfl)]
  split
  · exact .inr rfl
  · exact .inl rfl

/-- A reset step whose draw `r` is put before the other replies. -/
theorem step_reset_with_reply {s : State} {rest : List HostEvent} {f : Frame} (hh : s.host = .reset :: rest)
    (hf : s.inFlight = some f) (r : Reply) :
    ∃ t, step { s with replies := r :: s.replies } = .next t ∧ t.device = (deviceTakes f r s).device ∧
      t.select = (deviceTakes f r s).select := by
  obtain ⟨hdev, hsel⟩ := blockReset_of_inFlight (s := { s with replies := r :: s.replies, host := rest }) hf
  refine ⟨_, step_of_reset (s := { s with replies := r :: s.replies }) hh, hdev.trans ?_, hsel.trans ?_⟩ <;>
    cases f <;> rfl

/-- Settles O18: frame by frame, with an Err reply for each outcome that can happen. -/
theorem resetAbandonsOperation : Obligations.ResetAbandonsOperation := by
  refine ⟨fun s rest hh => ?_, fun s rest c v taken hh hf => ?_, fun s rest a hh hf => ?_⟩
  · refine ⟨_, step_of_reset hh, rfl, rfl, rfl, blockReset_host _, rfl, rfl, rfl,
      fun hnone => blockReset_of_not_inFlight (s := { s with host := rest }) hnone, fun c v hf => ?_, fun c hf => ?_,
      fun a hf => ?_, fun n hf => blockReset_of_inFlight (s := { s with host := rest }) hf⟩ <;>
      obtain ⟨hdev, hsel⟩ := blockReset_of_inFlight (s := { s with host := rest }) hf
    · rw [hdev]
      exact deviceTakes_write2_device_cases c v _ _
    · exact hdev
    · rw [hsel]
      exact deviceTakes_select_cases a _ _
  · obtain ⟨t, hstep, hdev, -⟩ := step_reset_with_reply hh hf (.err taken taken 0#4)
    exact ⟨_, t, hstep, hdev⟩
  · obtain ⟨t, hstep, -, hsel⟩ := step_reset_with_reply hh hf (.err true false a)
    exact ⟨_, t, hstep, hsel⟩

end Sys2Proof.Machine
end

section
/-! PROOFS. The write-back of a read-modify-write (spec/70_reset_and_hazards.md R224, spec/40_register_access.md R111). -/

namespace Sys2Proof.Machine

/-- Settles O42: the transaction due at SEQ 2 is the two-byte write computed from MIRROR. -/
theorem writeBackUsesMirrorOnly : Obligations.WriteBackUsesMirrorOnly := by
  intro i addr pm nb s b hi hw herr hseq hr
  have hdue : (scriptOf i s)[s.seq.toNat]? = some (plain (.write2 (cmd addr) (rmwByte s.mirror pm nb))) := by
    rw [scriptOf_of_rmwOf hi hw, hseq]
    rfl
  refine ⟨_, exec_transact hw (not_failed_of_no_err herr) hdue, ?_⟩
  rw [transact_eq_afterWrite hr]
  exact ⟨rfl, Memory.read_write_same _ _ _⟩

end Sys2Proof.Machine
end

section
/-! PROOFS. How long an operation takes (spec/70_reset_and_hazards.md R228, R231): while the transport is silent the block
stands with its transaction outstanding, and on each answer it is a transaction nearer to its response. -/

namespace Sys2Proof.Machine

/-! ### The transaction due -/

/-- `a` is the transaction a busy block issues next: REQ holds an operation with a legal argument, none of its transactions
has failed, and SEQ selects `a` (spec/40_register_access.md R110, R197). -/
def Due (a : Action) (s : State) : Prop :=
  ∃ i, decode s.req = .op i ∧ i.wellFormed = true ∧ failed s = false ∧ (scriptOf i s)[s.seq.toNat]? = some a

theorem Due.congr {a : Action} {s u : State} (h : Due a s) (hreq : u.req = s.req) (htr : u.trace = s.trace)
    (hseq : u.seq = s.seq) (hmirror : u.mirror = s.mirror) : Due a u := by
  obtain ⟨i, hd, hw, hf, ha⟩ := h
  exact ⟨i, by rw [hreq, hd], hw, by rw [failed, htr, ← failed, hf], by rw [scriptOf_congr hmirror, hseq, ha]⟩

/-- What the host does meanwhile is no matter. -/
theorem due_hostWaits_iff {a : Action} {s : State} : Due a (hostWaits s) ↔ Due a s :=
  ⟨fun h => h.congr (hostWaits_req s).symm (hostWaits_trace s).symm (hostWaits_seq s).symm (hostWaits_mirror s).symm,
    fun h => h.congr (hostWaits_req s) (hostWaits_trace s) (hostWaits_seq s) (hostWaits_mirror s)⟩

theorem Due.not_failed {a : Action} {s : State} (h : Due a s) : failed s = false := by
  obtain ⟨-, -, -, hf, -⟩ := h
  exact hf

theorem Due.seq_lt {a : Action} {s : State} (h : Due a s) : s.seq.toNat < 3 := by
  obtain ⟨i, -, -, -, ha⟩ := h
  exact seq_lt_of_due ha

theorem busyStep_of_due {a : Action} {s : State} (h : Due a s) : busyStep s = .next (transact a s) := by
  obtain ⟨i, hd, hw, hf, ha⟩ := h
  rw [busyStep_op hd, exec_transact hw hf ha]

/-- Where no transaction is due a busy block responds. -/
theorem busyStep_respond_or_due (s : State) :
    (∃ code r, busyStep s = .next (respond code r s)) ∨ ∃ a, Due a s := by
  cases hd : decode s.req with
  | illegal why => exact .inl ⟨_, _, busyStep_illegal hd⟩
  | op i =>
    rw [busyStep_op hd]
    obtain ⟨t, ht⟩ := exec_next i s
    obtain ⟨-, rfl⟩ | ⟨-, -, rfl⟩ | ⟨hw, hf, a, ha, -⟩ | ⟨-, -, -, rfl⟩ := exec_cases ht
    · exact .inl ⟨_, _, ht⟩
    · exact .inl ⟨_, _, ht⟩
    · exact .inr ⟨a, i, hd, hw, hf, ha⟩
    · exact .inl ⟨_, _, ht⟩

/-! ### A block at work -/

/-- The block works on the request `w`, and no reset is to come. -/
structure Working (w : Word) (s : State) : Prop where
  busy : s.busy = true
  req_eq : s.req = w
  noReset : ∀ e ∈ s.host, e ≠ .reset

theorem hostWaits_host_subset (s : State) : (hostWaits s).host ⊆ s.host := by
  unfold hostWaits
  split
  · next h => rw [h]; exact List.subset_cons_self _ _
  · exact List.Subset.refl _

namespace Working

variable {w : Word} {s : State} {a : Action}

theorem after_hostWaits (h : Working w s) : Working w (hostWaits s) where
  busy := by simpa using h.busy
  req_eq := by simpa using h.req_eq
  noReset := fun e he => h.noReset e (hostWaits_host_subset s he)

/-- A transaction step is no response: the block works on. -/
theorem after_transact (h : Working w s) : Working w (transact a s) where
  busy := by simpa using h.busy
  req_eq := by simpa using h.req_eq
  noReset := by simpa using h.noReset

theorem step_eq (h : Working w s) : step s = busyStep (hostWaits s) :=
  step_of_busy (fun rest hr => h.noReset .reset (by simp [hr]) rfl) h.busy

/-- Its step is a response, or the transaction due. -/
theorem step_respond_or_transact (h : Working w s) :
    (∃ code r, step s = .next (respond code r (hostWaits s))) ∨
      ∃ a, Due a s ∧ step s = .next (transact a (hostWaits s)) := by
  rw [h.step_eq]
  obtain hresp | ⟨a, hdue⟩ := busyStep_respond_or_due (hostWaits s)
  · exact .inl hresp
  · exact .inr ⟨a, due_hostWaits_iff.mp hdue, busyStep_of_due hdue⟩

end Working

/-! ### A silent transport -/

@[simp] theorem replyAfter_transact (a : Action) (s : State) (k : Nat) :
    replyAfter k (transact a s) = replyAfter (k + 1) s :=
  replyAfter_congr (t := takeReply s) (transact_replies a s) (transact_draws a s) k

@[simp] theorem replyAfter_hostWaits (s : State) (k : Nat) : replyAfter k (hostWaits s) = replyAfter k s :=
  replyAfter_congr (hostWaits_replies s) (hostWaits_draws s) k

/-- In `u` the block still waits for the answer to the transaction `a` it issued in `s`. -/
structure Waiting (s : State) (a : Action) (u : State) : Prop extends Working s.req u where
  due : Due a u
  outstanding : u.inFlight = some a.frame
  unanswered : u.rspValid = false
  trace_eq : u.trace = s.trace
  seq_eq : u.seq = s.seq
  status_eq : u.status = s.status
  result_eq : u.result = s.result

/-- A silent step leaves the transaction outstanding, and due again (R228). -/
theorem Working.waiting_of_silent {w : Word} {s : State} {a : Action} (h : Working w s) (hdue : Due a s)
    (hj : judge a.frame (nextReply s) = none) : Waiting s a (transact a (hostWaits s)) := by
  have hsilent := transact_silent (s := hostWaits s) (by rw [nextReply_hostWaits, hj])
  have htrace : (transact a (hostWaits s)).trace = s.trace := by simp [hsilent]
  have hseq : (transact a (hostWaits s)).seq = s.seq := by simp [hsilent]
  exact
    { toWorking := h.req_eq ▸ h.after_hostWaits.after_transact
      due := hdue.congr (by simp) htrace hseq (by simp [hsilent])
      outstanding := by rw [hsilent]
      unanswered := by simp
      trace_eq := htrace
      seq_eq := hseq
      status_eq := by simp
      result_eq := by simp }

namespace Waiting

variable {s u v : State} {a : Action}

theorem trans (h : Waiting s a u) (h' : Waiting u a v) : Waiting s a v where
  toWorking := h.req_eq ▸ h'.toWorking
  due := h'.due
  outstanding := h'.outstanding
  unanswered := h'.unanswered
  trace_eq := h'.trace_eq.trans h.trace_eq
  seq_eq := h'.seq_eq.trans h.seq_eq
  status_eq := h'.status_eq.trans h.status_eq
  result_eq := h'.result_eq.trans h.result_eq

/-- One more silent step. -/
theorem step_silent (h : Waiting s a u) (hr : nextReply u = .silent) :
    step u = .next (transact a (hostWaits u)) ∧ Waiting s a (transact a (hostWaits u)) :=
  ⟨h.step_eq.trans (busyStep_of_due (due_hostWaits_iff.mpr h.due)),
    h.trans (h.toWorking.waiting_of_silent h.due (by rw [hr]; rfl))⟩

/-- As many silent steps as the silence lasts. -/
theorem run_silent (h : Waiting s a u) (n : Nat) (hsilent : ∀ k, k < n → replyAfter k u = .silent) :
    ∃ v, core.run n u = .next v ∧ Waiting s a v := by
  induction n generalizing u with
  | zero => exact ⟨u, rfl, h⟩
  | succ n ih =>
    obtain ⟨hstep, hwaiting⟩ := h.step_silent (hsilent 0 n.succ_pos)
    rw [run_succ hstep]
    exact ih hwaiting fun k hk => by simpa using hsilent (k + 1) (Nat.succ_lt_succ hk)

end Waiting

/-- A busy block's step that leaves a transaction outstanding is one of silence. -/
theorem Working.waiting_of_inFlight {w : Word} {s t : State} (h : Working w s) (hstep : step s = .next t)
    (hfl : t.inFlight ≠ none) : ∃ a, Waiting s a t := by
  obtain ⟨code, r, hresp⟩ | ⟨a, hdue, htransact⟩ := h.step_respond_or_transact
  · cases hstep.symm.trans hresp
    exact absurd rfl hfl
  · cases hstep.symm.trans htransact
    obtain ⟨hj, -⟩ | ⟨-, hnone, -⟩ | ⟨bytes, -, hnone, -⟩ := transact_cases a (hostWaits s)
    · rw [nextReply_hostWaits] at hj
      exact ⟨a, h.waiting_of_silent hdue hj⟩
    · exact absurd hnone hfl
    · exact absurd hnone hfl

/-- Settles O44: the step left a silent transaction, and each further silence keeps it so. -/
theorem silentTransportKeepsBusy : Obligations.SilentTransportKeepsBusy := by
  intro s t n hb hhost hstep hfl hsilent
  have hs : Working s.req s := ⟨hb, rfl, hhost⟩
  obtain ⟨a, ht⟩ := hs.waiting_of_inFlight hstep hfl
  obtain ⟨u, hrun, hu⟩ := ht.run_silent n hsilent
  exact ⟨u, hrun, hu.busy, hu.unanswered, hu.outstanding.trans ht.outstanding.symm, hu.trace_eq, hu.seq_eq, hu.req_eq,
    hu.status_eq, hu.result_eq⟩

/-! ### A transport that answers -/

/-- The request `w` is answered in at most `n` steps and one for the response, with the block BUSY with it and without a
response in every state before. -/
def AnswersWithin (w : Word) (n : Nat) (s : State) : Prop :=
  ∃ k t, k ≤ n ∧ core.run (k + 1) s = .next t ∧ t.rspValid = true ∧ t.busy = false ∧ t.req = w ∧
    ∀ j, j ≤ k → ∃ u, core.run j s = .next u ∧ u.busy = true ∧ u.rspValid = false ∧ u.req = w

section Answers

variable {w : Word} {s t : State}

theorem AnswersWithin.of_respond {code : Code} {r : Word} (h : Working w s) (hu : s.rspValid = false)
    (hstep : step s = .next (respond code r (hostWaits s))) (n : Nat) : AnswersWithin w n s := by
  refine ⟨0, _, n.zero_le, run_succ hstep 0, rfl, rfl, (hostWaits_req s).trans h.req_eq, fun j hj => ?_⟩
  obtain rfl := Nat.le_zero.mp hj
  exact ⟨s, rfl, h.busy, hu, h.req_eq⟩

theorem AnswersWithin.of_step {n : Nat} (h : Working w s) (hu : s.rspValid = false) (hstep : step s = .next t)
    (ht : AnswersWithin w n t) : AnswersWithin w (n + 1) s := by
  obtain ⟨k, v, hk, hrun, hrsp, hbusy, hreq, hbetween⟩ := ht
  refine ⟨k + 1, v, Nat.succ_le_succ hk, (run_succ hstep _).trans hrun, hrsp, hbusy, hreq, fun j hj => ?_⟩
  cases j with
  | zero => exact ⟨s, rfl, h.busy, hu, h.req_eq⟩
  | succ j =>
    rw [run_succ hstep]
    exact hbetween j (Nat.le_of_succ_le_succ hj)

/-- An answered transaction fails the operation or takes SEQ on. -/
theorem transact_failed_or_seq_succ {a : Action} (h : nextReply s ≠ .silent) :
    failed (transact a s) = true ∨ (transact a s).seq = s.seq + 1#2 := by
  obtain ⟨hj, -⟩ | ⟨-, -, htr, -⟩ | ⟨bytes, -, -, -, hseq, -⟩ := transact_cases a s
  · exact absurd (eq_silent_of_judge hj) h
  · exact .inl ((failed_iff _).mpr ⟨_, _, htr⟩)
  · exact .inr hseq

/-- With `n` answers to come, a block that has failed, or that has at most `n` transactions before it, answers within `n`
steps and one: by induction on `n`, each transaction takes one of them (spec/10_state.md R21). -/
theorem Working.answersWithin (n : Nat) (h : Working w s) (hu : s.rspValid = false)
    (hleft : failed s = true ∨ 3 ≤ s.seq.toNat + n) (hreply : ∀ k, k < n → replyAfter k s ≠ .silent) :
    AnswersWithin w n s := by
  induction n generalizing s with
  | zero =>
    obtain ⟨code, r, hstep⟩ | ⟨a, hdue, -⟩ := h.step_respond_or_transact
    · exact .of_respond h hu hstep 0
    · have hlt := hdue.seq_lt
      have hseq := hleft.resolve_left (by simp [hdue.not_failed])
      omega
  | succ n ih =>
    obtain ⟨code, r, hstep⟩ | ⟨a, hdue, hstep⟩ := h.step_respond_or_transact
    · exact .of_respond h hu hstep _
    · have hseq := hleft.resolve_left (by simp [hdue.not_failed])
      have hanswer : nextReply (hostWaits s) ≠ .silent := by rw [nextReply_hostWaits]; exact hreply 0 n.succ_pos
      refine .of_step h hu hstep (ih h.after_hostWaits.after_transact (transact_rspValid _ _) ?_ fun k hk => ?_)
      · obtain hf | hsucc := transact_failed_or_seq_succ (a := a) hanswer
        · exact .inl hf
        · rw [hsucc, hostWaits_seq, toNat_seq_succ hdue.seq_lt]
          omega
      · simpa using hreply (k + 1) (Nat.succ_lt_succ hk)

end Answers

/-- Settles O50: the acceptance, then at most three transactions and the response. -/
theorem answersWithinFiveSteps : Obligations.AnswersWithinFiveSteps := by
  intro s w rest hb hh hnoReset hreply
  have haccept : step s = .next (accept w { s with host := rest }) := acceptanceLatchesRequest.1 s w rest hb (.inl hh)
  have hworking : Working w (accept w { s with host := rest }) := ⟨rfl, rfl, hnoReset⟩
  have hcoming : ∀ k, replyAfter k (accept w { s with host := rest }) = replyAfter k s := replyAfter_congr rfl rfl
  obtain ⟨k, t, hk, hrun, hrsp, hbusy, hreq, hbetween⟩ :=
    hworking.answersWithin 3 rfl (.inr (Nat.le_add_left 3 _)) fun k hk => by rw [hcoming]; exact hreply k hk
  refine ⟨k + 2, t, by omega, by omega, (run_succ haccept _).trans hrun, hrsp, hbusy, hreq, fun j hj1 hjk => ?_⟩
  obtain ⟨j, rfl⟩ := Nat.exists_eq_add_of_le' hj1
  rw [run_succ haccept]
  exact hbetween j (by omega)

end Sys2Proof.Machine
end

section
/-! PROOFS. Totality (spec/60_exceptions.md section 1, log entries 8, 15, 16): neither a step of the machine nor a meaning
of an operation ends in a fault or a refusal, in any state. -/

namespace Sys2Proof.Machine

/-- A busy block's step goes on: an operation takes its next step, and a word that spells none ends with its code. -/
theorem busyStep_next (s : State) : ∃ t, busyStep s = .next t := by
  cases hd : decode s.req with
  | op i => rw [busyStep_op hd]; exact exec_next i s
  | illegal why => exact ⟨_, busyStep_illegal hd⟩

/-- A step goes on in its three branches: a reset now, a busy block, an idle one. -/
theorem step_next (s : State) : ∃ t, step s = .next t := by
  obtain hn | ⟨rest, hreset⟩ := noResetNow_or_reset s
  · cases hb : s.busy with
    | true => rw [step_of_busy hn hb]; exact busyStep_next (hostWaits s)
    | false => exact ⟨_, step_of_idle hn hb⟩
  · exact ⟨_, step_of_reset hreset⟩

/-- Settles O15: a step by its branches, a meaning as one `operate`. -/
theorem everyStepAnswers : Obligations.EveryStepAnswers := ⟨step_next, exec_next⟩

end Sys2Proof.Machine
end
